-- ==== Sys2Proof/Word.lean ====
section
/-! DEFINITION. The word types of the EDR-16: bytes, the field widths of chapter 13 of the spec, and ticks. -/

namespace Sys2Proof

/-- A byte of a record, frame or register access. -/
abbrev Byte := BitVec 8

/-- A 16-bit field (session numbers, parameters, widths). -/
abbrev Half := BitVec 16

/-- A 32-bit field: a register word, a result word, a tag, a context value. -/
abbrev Word := BitVec 32

/-- A 64-bit field: an address, a time carried in a record or frame. -/
abbrev Quad := BitVec 64

/-- A 32-bit counter (R188: counters are 32-bit and saturating unless stated otherwise). -/
abbrev Counter := BitVec 32

end Sys2Proof
end

