-- ==== Sys2Proof/Config.lean ====
section
/-! DEFINITION. What is fixed for the part (capacities and intervals the spec states) and the free values: what the
spec leaves open, as constants with no body. -/

namespace Sys2Proof.Config

/-- R5: the Intake Queue holds up to 64 events. -/
def intakeCapacity : Nat := 64

/-- R37: the Hold Queue holds up to 128 entries. -/
def holdCapacity : Nat := 128

/-- R55: the tag memory holds up to 16 records. -/
def tagCapacity : Nat := 16

/-- R120: the transmit queue, window included, holds up to 32 frames. -/
def transmitCapacity : Nat := 32

/-- R120: the window holds up to 16 frames. -/
def windowCapacity : Nat := 16

/-- R106: a HELLO is made each time 10,000 ticks have passed since the one before. -/
def helloInterval : Nat := 10000

/-- R109: an ALIGNING session makes at most four probe attempts. -/
def probeAttempts : Nat := 4

/-- R105: ticks in a millisecond. -/
def ticksPerMs : Nat := 100000

/-- R105: ticks in a microsecond. -/
def ticksPerUs : Nat := 100

/-- FREE VALUE (log entry 9). R159 lets the completion of a deferred command stand after the completion of the
immediate command under execution, or before it. The argument is the number of such choices made so far. -/
opaque deferredFirst : Nat → Bool

/-- FREE VALUE (log entry 14). R154: whether message interrupts are enabled in the function's configuration when the
interrupt condition goes from false to true. The argument is the number of such rises before this one. -/
opaque messageInterruptsOn : Nat → Bool

/-- FREE VALUE (log entry 15). Whether an EVENT frame whose fields are out of range and which arrives while the session
is not UP is counted in rx_malformed (R101, R198) or in rx_unexpected (the last sentence of R126). -/
opaque malformedEventCountsOutsideUp : Bool

/-- FREE VALUE (log entry 16). The lateness field of a delivery whose intended release time (first argument) is later
than its delivery time (second argument): a hand-over taken after a backward TIME_SET. R62 says the difference is 0 or
greater for every delivery and R66 lets the step fall in between. -/
opaque latenessAcrossStep : Nat → Nat → Word

end Sys2Proof.Config
end

