-- ==== Sys2Proof/Machine/Types.lean ====
section
/-! DEFINITION. The kinds of value the spec names: levels, events, modes, states, reasons, fault classes, statuses,
and the frames of the span link. -/

namespace Sys2Proof.Machine

/-- A logical or pin level (R1, R71, R86). -/
inductive Level where
  | low
  | high
deriving DecidableEq, Repr

/-- R1: the kind of an event, with the parameter the kind needs (none for RISE and FALL). -/
inductive EventKind where
  | rise
  | fall
  | state (level : Level)
  | pulse (width : Half)
  | mark (word : Half)
deriving DecidableEq, Repr

/-- R2: where an event comes from. A tag is present exactly when the origin is HOST. -/
inductive Origin where
  | line (n : Fin 16)
  | link
  | host (tag : Word)
deriving DecidableEq, Repr

/-- R3: the flags an event carries before delivery (LATE is added by the Release Unit). -/
structure Flags where
  coalesced : Bool
  refresh : Bool
  unaligned : Bool
deriving DecidableEq, Repr

/-- R1: an event. -/
structure Event where
  source : Byte
  kind : EventKind
  capture : Nat
  origin : Origin
  flags : Flags
deriving DecidableEq, Repr

/-- R6: the intake's answer to an offer. -/
inductive OfferAnswer where
  | accepted
  | full
  | closed
deriving DecidableEq, Repr

/-- R15: the state of a route entry. -/
inductive RouteState where
  | unused
  | active
  | suspended
deriving DecidableEq, Repr

/-- R18, R21, R25: how far a decision of the Router has come: the route entry has been read, and is not UNUSED;
the event has passed kind filter and conversion and is counted in routed; the link forward is done, and the comparison
with now comes next. -/
inductive DecisionStage where
  | lookedUp
  | counted
  | forwarded
deriving DecidableEq, Repr

/-- R14: what happens to a late event. -/
inductive LatePolicy where
  | deliverLate
  | discard
deriving DecidableEq, Repr

/-- R70: the mode of an input line. -/
inductive InMode where
  | off
  | riseOnly
  | fallOnly
  | both
deriving DecidableEq, Repr

/-- R85: the mode of an output line. -/
inductive OutMode where
  | disabled
  | routed
  | host
deriving DecidableEq, Repr

/-- R85: the drive of an output line. -/
inductive Drive where
  | pushPull
  | openDrain
deriving DecidableEq, Repr

/-- R85: the polarity of an output line. -/
inductive Polarity where
  | activeHigh
  | activeLow
deriving DecidableEq, Repr

/-- R86: what the part does to an output pin. -/
inductive PinDrive where
  | drivenLow
  | drivenHigh
  | released
deriving DecidableEq, Repr

/-- R95: the outcome of a level event or pulse request on an output line that acts on it. -/
inductive LineOutcome where
  | applied
  | truncated
  | redundant
  | retriggered
deriving DecidableEq, Repr

/-- R103: the state of the span link session. -/
inductive Session where
  | closed
  | calling
  | aligning
  | up
  | failed
deriving DecidableEq, Repr

/-- R118: why the session last changed state. -/
inductive Reason where
  | noReason
  | opened
  | timeout
  | alignFailed
  | retryLimit
  | silent
  | peerRestart
  | hostClose
  | peerClose
  | stop
deriving DecidableEq, Repr

/-- R136: the state of the part. -/
inductive PartState where
  | idle
  | starting
  | running
  | stopping
  | halted
deriving DecidableEq, Repr

/-- R138: the start error field of STATUS. -/
inductive StartError where
  | noError
  | badSize
  | badAlign
  | overlap
  | busError
deriving DecidableEq, Repr

/-- R181: the nine fault classes. -/
inductive FaultClass where
  | hostBus
  | hostProtocol
  | intakeFull
  | holdFull
  | deadline
  | ringLoss
  | linkLost
  | linkBacklog
  | alignStale
deriving DecidableEq, Repr

/-- R153: the seven interrupt causes. -/
inductive Cause where
  | completion
  | event (ring : Fin 4)
  | fault
  | state
deriving DecidableEq, Repr

/-- R159: the status of a completion record. -/
inductive Status where
  | ok
  | busy
  | invalid
  | unknown
  | notEmpty
  | intakeFull
  | closed
  | wrongMode
  | linkState
  | timeout
  | alignFailed
  | deadline
  | aborted
deriving DecidableEq, Repr

/-- R155: the four kinds of deferred command. -/
inductive DeferredKind where
  | linkOpen
  | quiesce
  | statsRead
  | fence
deriving DecidableEq, Repr

/-- R176: the six STATS sections. -/
inductive Section6 where
  | routes
  | inputs
  | outputs
  | link
  | rings
  | global
deriving DecidableEq, Repr

/-- R101, 13.4: a span link frame with its fields. Times are the sender's 64-bit count. -/
inductive Frame where
  | hello (sender seen : Half)
  | close (sender : Half)
  | idle (sender : Half)
  | event (seq source : Byte) (kind : EventKind) (coalesced refresh : Bool) (capture : Quad)
  | ack (next : Byte)
  | probe (number : Byte) (t1 : Quad)
  | echo (number : Byte) (t1 t2 t3 : Quad)
deriving DecidableEq, Repr

/-- R197, 13.2: a record the Ring Engine writes into a completion or event ring. Times are local ticks. -/
inductive HostRecord where
  | completion (kind : Byte) (tag : Word) (status : Status) (w1 w2 w3 : Word)
  | event (source : Byte) (kind : EventKind) (origin : Origin) (flags : Flags) (late : Bool)
      (capture delivery : Nat) (lateness : Word)
  | loss (count : Word)
  | fault (cls : FaultClass) (context : Word) (time : Nat)
  | link (state : Session) (reason : Reason) (own peer : Half) (time : Nat)
deriving DecidableEq, Repr

end Sys2Proof.Machine
end

