-- ==== Sys2Proof/Syntax.lean ====
section
/-! DEFINITION. The steps of the part, one constructor of `Instr` for each row of spec/opcode_table.json, with the
operands of the layouts of chapter 13. Fields of host commands have the width of their record field (13.2), so that a
value out of range can be written; it completes INVALID (R156, R197). -/

namespace Sys2Proof

open Sys2Proof.Machine

/-- Command record of ROUTE_SET (13.2, code 01h). -/
structure RouteSetFields where
  source : Half
  state : Byte
  forward : Byte
  outputs : Word
  rings : Byte
  kinds : Byte
  late : Byte
  refresh : Byte
  latency : Word
  width : Word
deriving DecidableEq, Repr

/-- Command record of ROUTE_CLEAR (13.2, code 02h). -/
structure RouteClearFields where
  source : Half
  purge : Byte
deriving DecidableEq, Repr

/-- Command record of LINE_IN_CONFIG (13.2, code 05h). -/
structure LineInFields where
  line : Byte
  mode : Byte
  announce : Byte
  filter : Half
  source : Half
  spacing : Word
deriving DecidableEq, Repr

/-- Command record of LINE_OUT_CONFIG (13.2, code 06h). -/
structure LineOutFields where
  line : Byte
  mode : Byte
  drive : Byte
  polarity : Byte
  resting : Byte
deriving DecidableEq, Repr

/-- Command record of OUTPUT_SET (13.2, code 07h). -/
structure OutputSetFields where
  line : Byte
  action : Byte
  level : Byte
  width : Word
deriving DecidableEq, Repr

/-- Command record of SCHEDULE (13.2, code 08h). -/
structure ScheduleFields where
  source : Half
  kind : Byte
  param : Word
  stamp : Quad
  eventTag : Word
deriving DecidableEq, Repr

/-- Command record of LINK_OPEN (13.2, code 0Dh). -/
structure LinkOpenFields where
  openTimeout : Half
  ackTimeout : Half
  retryLimit : Byte
  idleTimeout : Half
  alignInterval : Half
  maxDelay : Half
deriving DecidableEq, Repr

/-- Command record of STATS_READ (13.2, code 11h). -/
structure StatsReadFields where
  address : Quad
  length : Word
  sections : Byte
  clear : Byte
deriving DecidableEq, Repr

/-- Command record of FAULTS (13.2, code 12h). -/
structure FaultsFields where
  clear : Half
  mask : Half
  maskWrite : Byte
  query : Byte
deriving DecidableEq, Repr

/-- A command record of the command ring without its command tag: its kind and the fields the kind names (13.2).
`unknown` is a record whose kind byte is none of the nineteen (R156). -/
inductive Command where
  | unknown (kind : Byte)
  | routeSet (f : RouteSetFields)
  | routeClear (f : RouteClearFields)
  | routeSuspend (source : Half)
  | routeResume (source : Half)
  | lineInConfig (f : LineInFields)
  | lineOutConfig (f : LineOutFields)
  | outputSet (f : OutputSetFields)
  | schedule (f : ScheduleFields)
  | cancel (eventTag : Word)
  | refresh (lines : Word)
  | timeRead
  | timeSet (time : Quad)
  | linkOpen (f : LinkOpenFields)
  | linkClose
  | quiesce (deadline : Word)
  | openIntake
  | statsRead (f : StatsReadFields)
  | faults (f : FaultsFields)
  | fence
deriving DecidableEq, Repr

/-- A command that is under execution when the part enters STOPPING or HALTED (R140, R160): its record, and after how
many of its requests to other blocks the entry falls. `requests = 0`: before the owning block takes the first request.
For REFRESH and ROUTE_SET with REFRESH the requests counted are the offers to the intake (R80, R161); for every other
command any number but 0 puts the entry after its request and before its completion. -/
structure Overtaken where
  tag : Word
  command : Command
  requests : Nat
deriving DecidableEq, Repr

/-- The fields of an EVENT frame as they arrive (13.4), before the checks of R126. -/
structure RxEventFields where
  seq : Byte
  source : Byte
  kind : Byte
  param : Half
  flags : Byte
  capture : Quad
deriving DecidableEq, Repr

/-- An offer a producer makes that reaches the intake after the entry to STOPPING or HALTED has closed it (R7, R12,
R83): the step of the producer that makes the offer. -/
inductive LateOffer where
  /-- the acceptance of the candidate of a line (R73, R74) -/
  | edge (line : Fin 16)
  /-- a raw change accepted at once, with F = 0 (R73) -/
  | unfiltered (line : Fin 16) (level : Level)
  /-- the spacing end of a line (R77) -/
  | catchUp (line : Fin 16)
  /-- the next line of an announce under way (R81) -/
  | announce
  /-- an EVENT frame (R127) -/
  | frame (f : RxEventFields)
deriving DecidableEq, Repr

/-- The two parts of an RX_ECHO: the frame, which may bring the session UP and begin an announce, and the offers of an
announce that is under way (R81, R132). `pause`: after how many of the announce's offers another step may fall (R8);
`none`: the announce is made to its end. -/
inductive EchoPart where
  | frame (pause : Option Nat)
  | announce (pause : Option Nat)
deriving DecidableEq, Repr

/-- The setup block as read at STARTING (13.2). -/
structure SetupBlock where
  version : Word
  notice : Byte
  cmdBase : Quad
  cmdSize : Word
  complBase : Quad
  complSize : Word
  eventBase : Vector Quad 4
  eventSize : Vector Word 4
  status : Quad
deriving DecidableEq, Repr

/-- R150: who hands the Ring Engine the event ring record it takes. -/
inductive Poster where
  /-- the Release Unit, for one ring of its delivery in progress (R44) -/
  | release (ring : Fin 4)
  /-- the Fault Unit, its oldest notice handed over (R183) -/
  | faultUnit
  /-- the Link Controller, its oldest notice handed over (R118) -/
  | linkController
deriving DecidableEq, Repr

/-- R146: the six index fields of the status block. -/
inductive IndexField where
  /-- the command consumer index -/
  | command
  /-- the completion producer index -/
  | completion
  /-- the producer index of an event ring -/
  | event (ring : Fin 4)
deriving DecidableEq, Repr

/-- Which outstanding host memory write completes: the oldest record write of a ring, the oldest write of an index field,
the oldest of the STATS_READ buffer (R146, R149, R150, R177), or one left on the bus (R142). -/
inductive WriteTarget where
  | completionRing
  | eventRing (ring : Fin 4)
  | index (field : IndexField)
  | statsBuffer
  /-- the write at this place of those that a device reset or the entry to HALTED left on the bus (R142) -/
  | issued (index : Nat)
deriving DecidableEq, Repr

/-- The steps of the part: one constructor per row of spec/opcode_table.json. -/
inductive Instr where
  /-- START (R138): CONTROL written with START and without RESET. -/
  | start
  /-- STOP (R140): CONTROL written with STOP and without RESET; `during` is the command whose execution it falls in, if
  any, and `late` are the offers that reach the intake after it. -/
  | stop (during : Option Overtaken) (late : List LateOffer := [])
  /-- RESET (R142): CONTROL written with RESET. -/
  | reset
  /-- RESET_N_ASSERT (R142). -/
  | resetNAssert
  /-- RESET_N_RELEASE (R60). -/
  | resetNRelease
  /-- FUNCTION_RESET (R142). -/
  | functionReset
  /-- SETUP_READ_DONE (R138): the setup block read returns with `block`. -/
  | setupReadDone (block : SetupBlock)
  /-- STATUS_BLOCK_INIT_DONE (R138). -/
  | statusBlockInitDone
  /-- STOPPING_END (R140). -/
  | stoppingEnd
  /-- BUS_MASTER_ERROR (R141); `during` is the command whose execution it falls in, if any, `late` are the offers that
  reach the intake after it, and `indexed` says that the index write of that command has completed before it. -/
  | busMasterError (during : Option Overtaken := none) (late : List LateOffer := []) (indexed : Bool := false)
  /-- SUBMIT (R144): `word` written to SUBMIT. -/
  | submit (word : Word)
  /-- RELEASE (R145): `word` written to RELEASE. -/
  | release (word : Word)
  /-- INT_CAUSE (R153): `word` written to INT_CAUSE. -/
  | intCause (word : Word)
  /-- INT_ENABLE (R154): `word` written to INT_ENABLE. -/
  | intEnable (word : Word)
  /-- REGISTER_WRITE (R199): `count` bytes of `word` written at byte `offset` of the region. -/
  | registerWrite (offset count : Nat) (word : Word)
  /-- UNKNOWN_COMMAND (R156). -/
  | unknownCommand (tag : Word) (kind : Byte)
  /-- ROUTE_SET (R31, R161). With REFRESH, `pause` says after how many of its offers another step may fall (R8); the
  same step again goes on with the offers. `none`: they are made to the last. -/
  | routeSet (tag : Word) (f : RouteSetFields) (pause : Option Nat := none)
  /-- ROUTE_CLEAR (R33, R162). -/
  | routeClear (tag : Word) (f : RouteClearFields)
  /-- ROUTE_SUSPEND (R34, R163). -/
  | routeSuspend (tag : Word) (source : Half)
  /-- ROUTE_RESUME (R34, R163). -/
  | routeResume (tag : Word) (source : Half)
  /-- LINE_IN_CONFIG (R82, R164). -/
  | lineInConfig (tag : Word) (f : LineInFields)
  /-- LINE_OUT_CONFIG (R93, R165). -/
  | lineOutConfig (tag : Word) (f : LineOutFields)
  /-- OUTPUT_SET (R95, R166). -/
  | outputSet (tag : Word) (f : OutputSetFields)
  /-- SCHEDULE (R168). -/
  | schedule (tag : Word) (f : ScheduleFields)
  /-- CANCEL (R48, R169). -/
  | cancel (tag : Word) (eventTag : Word)
  /-- REFRESH (R80, R167); `pause` says after how many of its offers another step may fall (R8), and the same step again
  goes on with the offers. `none`: they are made to the last. -/
  | refresh (tag : Word) (lines : Word) (pause : Option Nat := none)
  /-- TIME_READ (R64, R170). -/
  | timeRead (tag : Word)
  /-- TIME_SET (R65, R170). -/
  | timeSet (tag : Word) (time : Quad)
  /-- LINK_OPEN (R105, R171). -/
  | linkOpen (tag : Word) (f : LinkOpenFields)
  /-- LINK_CLOSE (R115, R172). -/
  | linkClose (tag : Word)
  /-- QUIESCE (R173). -/
  | quiesce (tag : Word) (deadline : Word)
  /-- OPEN (R175). -/
  | openIntake (tag : Word)
  /-- STATS_READ (R176). -/
  | statsRead (tag : Word) (f : StatsReadFields)
  /-- FAULTS (R178). -/
  | faults (tag : Word) (f : FaultsFields)
  /-- FENCE (R179). -/
  | fence (tag : Word)
  /-- QUIESCE_DEADLINE (R174). -/
  | quiesceDeadline
  /-- STATS_ITEM_READ (R190); `board` is the level the board gives on each released output pin (R99). -/
  | statsItemRead (board : BitVec 16)
  /-- STATS_READ_DONE (R177). -/
  | statsReadDone
  /-- ROUTER_TAKE (R18); `pause` is the stage of the decision after which another step may fall (R18, R32, R39), and the
  same step again goes on with it. `none`: the decision is made to its end. -/
  | routerTake (pause : Option DecisionStage := none)
  /-- HOLD_RELEASE (R40). -/
  | holdRelease
  /-- HANDOVER_TAKE (R41). -/
  | handoverTake
  /-- APPLICATION_REQUEST (R88): the Output Unit takes the request of the delivery for `line`. -/
  | applicationRequest (line : Fin 16)
  /-- PULSE_END (R91). -/
  | pulseEnd (line : Fin 16)
  /-- EVENT_RECORD_TAKE (R150). -/
  | eventRecordTake (poster : Poster)
  /-- RECORD_WRITE_DONE (R146). -/
  | recordWriteDone (target : WriteTarget)
  /-- RAW_CHANGE (R72): the pin of `line` is sampled at `level`. -/
  | rawChange (line : Fin 16) (level : Level)
  /-- FILTER_ACCEPT (R73). -/
  | filterAccept (line : Fin 16)
  /-- SPACING_END (R77). -/
  | spacingEnd (line : Fin 16)
  /-- FAULT_RAISE (R182): the Fault Unit takes the raise at place `index` of those that have reached it. -/
  | faultRaise (index : Nat)
  /-- CRC_ERROR (R100). -/
  | crcError
  /-- FRAME_MALFORMED (R101). -/
  | frameMalformed
  /-- RX_HELLO (R106, R113). -/
  | rxHello (sender seen : Half)
  /-- RX_CLOSE (R114). -/
  | rxClose (sender : Half)
  /-- RX_IDLE (R104). -/
  | rxIdle (sender : Half)
  /-- RX_EVENT (R126 to R128). -/
  | rxEvent (f : RxEventFields)
  /-- RX_ACK (R123). -/
  | rxAck (next : Byte)
  /-- RX_PROBE (R131). -/
  | rxProbe (number : Byte) (t1 : Quad)
  /-- RX_ECHO (R132): the frame, or the offers of the announce it began (R81), which read no field of a frame. -/
  | rxEcho (number : Byte) (t1 t2 t3 : Quad) (part : EchoPart := .frame none)
  /-- FRAME_TRANSMIT (R102). -/
  | frameTransmit
  /-- FRAME_SENT (R102). -/
  | frameSent
  /-- HELLO_TIMER (R106). -/
  | helloTimer
  /-- OPEN_TIMEOUT (R107). -/
  | openTimeout
  /-- KEEPALIVE (R111). -/
  | keepalive
  /-- SILENCE_TIMEOUT (R112). -/
  | silenceTimeout
  /-- PROBE_ATTEMPT_END (R109). -/
  | probeAttemptEnd
  /-- PROBE_TIMER (R130). -/
  | probeTimer
  /-- ACK_TIMEOUT (R125). -/
  | ackTimeout
  /-- STALENESS_TIMEOUT (R133). -/
  | stalenessTimeout
  /-- TICK (R60). -/
  | tick
deriving DecidableEq, Repr

end Sys2Proof
end

