-- ==== Sys2Proof/Machine/Formats.lean ====
section
/-! DEFINITION. The layouts of chapter 13: little-endian fields, codes, the bytes of ring records, of the setup block
and of span link frames, and the CRC-16. -/

namespace Sys2Proof.Machine

/-- The low `n` bytes of `x`, least significant first (chapter 13: multi-byte fields are little-endian). -/
def le : Nat → Nat → List Byte
  | 0, _ => []
  | n + 1, x => BitVec.ofNat 8 x :: le n (x / 256)

/-- The number that little-endian bytes stand for. -/
def ofLe : List Byte → Nat
  | [] => 0
  | b :: bs => b.toNat + 256 * ofLe bs

/-- `n` bytes from `offset` of a record, bytes past its end reading 0. -/
def bytesAt (r : List Byte) (offset n : Nat) : List Byte :=
  (List.range n).map fun i => r.getD (offset + i) 0

/-- The `n`-byte little-endian field at `offset` of a record. -/
def fieldAt (r : List Byte) (offset n : Nat) : Nat :=
  ofLe (bytesAt r offset n)

/-- `n` bytes written 0 (R197: each byte not named by a field is written 0). -/
def zeros (n : Nat) : List Byte := List.replicate n 0

/-- A flag byte: 1 for yes, 0 for no (13.3). -/
def flagByte (b : Bool) : Byte := if b then 1 else 0

/-- `b` as bit `i` of a byte. -/
def bitByte (i : Nat) (b : Bool) : Byte := if b then BitVec.ofNat 8 (2 ^ i) else 0

/-! ### Codes (13.1, 13.2, 13.3) -/

/-- 13.1: level codes. -/
def Level.code : Level → Nat
  | .low => 0
  | .high => 1

/-- 13.1: event kind codes. -/
def EventKind.code : EventKind → Nat
  | .rise => 0
  | .fall => 1
  | .state _ => 2
  | .pulse _ => 3
  | .mark _ => 4

/-- R197: the 16-bit parameter of an event; 0 for RISE and FALL. -/
def EventKind.param : EventKind → Half
  | .rise => 0
  | .fall => 0
  | .state l => BitVec.ofNat 16 l.code
  | .pulse w => w
  | .mark w => w

/-- 13.1: origin codes. -/
def Origin.code : Origin → Nat
  | .line n => n.val
  | .link => 16
  | .host _ => 17

/-- R197: the tag field of an event; 0 for a LINE or LINK event. -/
def Origin.tagField : Origin → Word
  | .line _ => 0
  | .link => 0
  | .host t => t

/-- 13.1: the flags byte of an EVENT record. -/
def flagsByte (f : Flags) (late : Bool) : Byte :=
  bitByte 0 f.coalesced ||| bitByte 1 f.refresh ||| bitByte 2 f.unaligned ||| bitByte 3 late

/-- 13.1: session state codes. -/
def Session.code : Session → Nat
  | .closed => 0
  | .calling => 1
  | .aligning => 2
  | .up => 3
  | .failed => 4

/-- 13.1: reason codes. -/
def Reason.code : Reason → Nat
  | .noReason => 0
  | .opened => 1
  | .timeout => 2
  | .alignFailed => 3
  | .retryLimit => 4
  | .silent => 5
  | .peerRestart => 6
  | .hostClose => 7
  | .peerClose => 8
  | .stop => 9

/-- 13.1: fault class codes, also the class's bit in every class set. -/
def FaultClass.code : FaultClass → Fin 9
  | .hostBus => 0
  | .hostProtocol => 1
  | .intakeFull => 2
  | .holdFull => 3
  | .deadline => 4
  | .ringLoss => 5
  | .linkLost => 6
  | .linkBacklog => 7
  | .alignStale => 8

/-- The nine classes in class order. -/
def allFaultClasses : List FaultClass :=
  [.hostBus, .hostProtocol, .intakeFull, .holdFull, .deadline, .ringLoss, .linkLost, .linkBacklog, .alignStale]

/-- 13.1: completion status codes. -/
def Status.code : Status → Nat
  | .ok => 0
  | .busy => 1
  | .invalid => 2
  | .unknown => 3
  | .notEmpty => 4
  | .intakeFull => 5
  | .closed => 6
  | .wrongMode => 7
  | .linkState => 8
  | .timeout => 9
  | .alignFailed => 10
  | .deadline => 11
  | .aborted => 12

/-- 13.1: the bit of a kind in the deferred set. -/
def DeferredKind.bit : DeferredKind → Nat
  | .linkOpen => 0
  | .quiesce => 1
  | .statsRead => 2
  | .fence => 3

/-- 13.1: section codes, also the section's bit in a section set. -/
def Section6.code : Section6 → Nat
  | .routes => 0
  | .inputs => 1
  | .outputs => 2
  | .link => 3
  | .rings => 4
  | .global => 5

/-- R177: the order in which a STATS_READ writes its sections. -/
def allSections : List Section6 := [.routes, .inputs, .outputs, .link, .rings, .global]

/-- 13.3: the size of each section in bytes, its 16-byte header included. -/
def Section6.size : Section6 → Nat
  | .routes => 12304
  | .inputs => 1040
  | .outputs => 784
  | .link => 144
  | .rings => 256
  | .global => 272

/-- 13.5: part state codes. -/
def PartState.code : PartState → Nat
  | .idle => 0
  | .starting => 1
  | .running => 2
  | .stopping => 3
  | .halted => 4

/-- 13.5: start error codes. -/
def StartError.code : StartError → Nat
  | .noError => 0
  | .badSize => 1
  | .badAlign => 2
  | .overlap => 3
  | .busError => 4

/-- 13.5: the bit of a cause in INT_CAUSE and INT_ENABLE. -/
def Cause.bit : Cause → Nat
  | .completion => 0
  | .event r => 1 + r.val
  | .fault => 5
  | .state => 6

/-- 13.2: input mode codes. -/
def InMode.code : InMode → Nat
  | .off => 0
  | .riseOnly => 1
  | .fallOnly => 2
  | .both => 3

/-- 13.2: output mode codes. -/
def OutMode.code : OutMode → Nat
  | .disabled => 0
  | .routed => 1
  | .host => 2

/-- 13.2: drive codes. -/
def Drive.code : Drive → Nat
  | .pushPull => 0
  | .openDrain => 1

/-- 13.2: polarity codes. -/
def Polarity.code : Polarity → Nat
  | .activeHigh => 0
  | .activeLow => 1

/-- 13.3: route state codes. -/
def RouteState.code : RouteState → Nat
  | .unused => 0
  | .active => 1
  | .suspended => 2

/-- 13.2: late policy codes. -/
def LatePolicy.code : LatePolicy → Nat
  | .deliverLate => 0
  | .discard => 1

/-- R166: outcome codes of OUTPUT_SET. -/
def LineOutcome.code : LineOutcome → Nat
  | .applied => 1
  | .truncated => 2
  | .redundant => 3
  | .retriggered => 4

/-- 13.2: the kind code of a command record. -/
def Command.code : Command → Byte
  | .unknown kind => kind
  | .routeSet _ => 0x01
  | .routeClear _ => 0x02
  | .routeSuspend _ => 0x03
  | .routeResume _ => 0x04
  | .lineInConfig _ => 0x05
  | .lineOutConfig _ => 0x06
  | .outputSet _ => 0x07
  | .schedule _ => 0x08
  | .cancel _ => 0x09
  | .refresh _ => 0x0A
  | .timeRead => 0x0B
  | .timeSet _ => 0x0C
  | .linkOpen _ => 0x0D
  | .linkClose => 0x0E
  | .quiesce _ => 0x0F
  | .openIntake => 0x10
  | .statsRead _ => 0x11
  | .faults _ => 0x12
  | .fence => 0x13

/-- 13.2: the kind code of a deferred command. -/
def DeferredKind.commandCode : DeferredKind → Byte
  | .linkOpen => 0x0D
  | .quiesce => 0x0F
  | .statsRead => 0x11
  | .fence => 0x13

/-! ### Ring records (13.2) -/

/-- 13.2, R197: the 32 bytes of a completion record or of an event ring record. -/
def HostRecord.bytes : HostRecord → List Byte
  | .completion kind tag status w1 w2 w3 =>
      [kind, BitVec.ofNat 8 status.code, 0, 0] ++ le 4 tag.toNat
        ++ le 4 w1.toNat ++ le 4 w2.toNat ++ le 4 w3.toNat ++ zeros 12
  | .event source kind origin flags late capture delivery lateness =>
      [1, source, BitVec.ofNat 8 kind.code, BitVec.ofNat 8 origin.code, flagsByte flags late, 0]
        ++ le 2 kind.param.toNat ++ le 8 capture ++ le 8 delivery ++ le 4 lateness.toNat
        ++ le 4 origin.tagField.toNat
  | .loss count => [2, 0, 0, 0] ++ le 4 count.toNat ++ zeros 24
  | .fault cls context time =>
      [3, BitVec.ofNat 8 cls.code.val, 0, 0] ++ le 4 context.toNat ++ le 8 time ++ zeros 16
  | .link state reason own peer time =>
      [4, BitVec.ofNat 8 state.code, BitVec.ofNat 8 reason.code, 0]
        ++ le 2 own.toNat ++ le 2 peer.toNat ++ le 8 time ++ zeros 16

/-! ### The setup block (13.2) -/

/-- 13.2: the setup block that 128 bytes of host memory hold. -/
def setupBlockOfBytes (r : List Byte) : SetupBlock where
  version := BitVec.ofNat 32 (fieldAt r 0 4)
  notice := BitVec.ofNat 8 (fieldAt r 4 1)
  cmdBase := BitVec.ofNat 64 (fieldAt r 8 8)
  cmdSize := BitVec.ofNat 32 (fieldAt r 16 4)
  complBase := BitVec.ofNat 64 (fieldAt r 24 8)
  complSize := BitVec.ofNat 32 (fieldAt r 32 4)
  eventBase := Vector.ofFn fun i => BitVec.ofNat 64 (fieldAt r (40 + 16 * i.val) 8)
  eventSize := Vector.ofFn fun i => BitVec.ofNat 32 (fieldAt r (48 + 16 * i.val) 4)
  status := BitVec.ofNat 64 (fieldAt r 104 8)

/-! ### Frames (13.4, R198) -/

/-- One shift of the CRC register: generator polynomial 1021h (R198). -/
def crcShift (crc : BitVec 16) : BitVec 16 :=
  if crc.msb then (crc <<< 1) ^^^ 0x1021 else crc <<< 1

/-- The CRC register after `n` shifts. -/
def crcShifts : Nat → BitVec 16 → BitVec 16
  | 0, crc => crc
  | n + 1, crc => crcShifts n (crcShift crc)

/-- The CRC register after one more byte, most significant bit first (no reflection). -/
def crcByte (crc : BitVec 16) (b : Byte) : BitVec 16 :=
  crcShifts 8 (crc ^^^ (b.setWidth 16 <<< 8))

/-- R198: the CRC-16 of bytes in order, initial value FFFFh, no final inversion. -/
def crc16 (bs : List Byte) : BitVec 16 :=
  bs.foldl crcByte 0xFFFF

/-- 13.4: a frame's bytes before its CRC. -/
def Frame.body : Frame → List Byte
  | .hello sender seen => 1 :: (le 2 sender.toNat ++ le 2 seen.toNat)
  | .close sender => 2 :: le 2 sender.toNat
  | .idle sender => 3 :: le 2 sender.toNat
  | .event seq source kind coalesced refresh capture =>
      [4, seq, source, BitVec.ofNat 8 kind.code] ++ le 2 kind.param.toNat
        ++ [bitByte 0 coalesced ||| bitByte 1 refresh] ++ le 8 capture.toNat
  | .ack next => [5, next]
  | .probe number t1 => [6, number] ++ le 8 t1.toNat
  | .echo number t1 t2 t3 => [7, number] ++ le 8 t1.toNat ++ le 8 t2.toNat ++ le 8 t3.toNat

/-- R198: a frame as it stands on the lane: body and CRC-16, low byte first. -/
def Frame.bytes (f : Frame) : List Byte :=
  f.body ++ le 2 (crc16 f.body).toNat

end Sys2Proof.Machine
end

