-- ==== Sys2Proof/Machine/State.lean ====
section
/-! DEFINITION. Every piece of state the spec gives the EDR-16, block by block, as plain data, and its value right
after a device reset. -/

namespace Sys2Proof.Machine

/-! ### Route Table (R14, R30) -/

/-- R14: the fields of a route entry other than its state and counters. -/
structure RouteConfig where
  outputs : BitVec 16
  rings : BitVec 4
  forward : Bool
  latency : BitVec 24
  late : LatePolicy
  kinds : BitVec 5
  width : BitVec 16
deriving DecidableEq, Repr

/-- R30: the eight counters of a route entry, in the order of the ROUTES section. -/
structure RouteCounters where
  routed : Counter
  filtered : Counter
  suppressed : Counter
  lateDelivered : Counter
  lateDiscarded : Counter
  holdDropped : Counter
  linkSent : Counter
  linkDropped : Counter
deriving DecidableEq, Repr

/-- R14: a route entry. -/
structure RouteEntry where
  state : RouteState
  config : RouteConfig
  counters : RouteCounters
deriving DecidableEq, Repr

/-- R17: the three unrouted counters. -/
structure Unrouted where
  line : Counter
  link : Counter
  host : Counter
deriving DecidableEq, Repr

/-! ### Hold Queue, tag memory, Release Unit -/

/-- R41: an event under the Router's decision that waits for the Release Unit, with its local destinations, release
time and late mark (R26, R27). -/
structure Handover where
  event : Event
  outputs : BitVec 16
  rings : BitVec 4
  release : Nat
  late : Bool
deriving DecidableEq, Repr

/-- R18: an event under the Router's decision before the comparison of R25: the event (its kind converted from `counted`
on), the reading of its route entry made at the lookup, SUSPENDED or ACTIVE (with UNUSED the decision ends at the
lookup), and how far the decision has come. -/
structure Deciding where
  event : Event
  suspended : Bool
  config : RouteConfig
  stage : DecisionStage
deriving DecidableEq, Repr

/-- R35: a hold entry: release time, the event, and the destination snapshot. -/
structure HoldEntry where
  release : Nat
  event : Event
  outputs : BitVec 16
  rings : BitVec 4
deriving DecidableEq, Repr

/-- R59: the hold counters and the peak; the depth is the length of the list. -/
structure HoldCounters where
  inserted : Counter
  released : Counter
  cancelled : Counter
  purged : Counter
  peak : Nat
deriving DecidableEq, Repr

/-- R55: a record of the tag memory. -/
structure TagRecord where
  tag : Word
  forwarded : Bool
deriving DecidableEq, Repr

/-- R41, R44: the Release Unit's delivery in progress. `outputs` and `rings` are the destinations not yet taken;
`time` is the delivery time (R43), and `shift` the sum of the TIME_SET steps accepted since the take (R68). -/
structure Delivery where
  event : Event
  outputs : BitVec 16
  rings : BitVec 4
  release : Nat
  late : Bool
  time : Nat
  shift : Int
deriving DecidableEq, Repr

/-! ### Input lines (R70, R71, R84) -/

/-- R84: the five counters of an input line. -/
structure InCounters where
  captured : Counter
  glitches : Counter
  coalesced : Counter
  lost : Counter
  refusedClosed : Counter
deriving DecidableEq, Repr

/-- R70: the settings of an input line. -/
structure InConfig where
  mode : InMode
  filter : BitVec 12
  spacing : BitVec 20
  source : Byte
  announce : Bool
deriving DecidableEq, Repr

/-- R70, R71, R84: an input line. `candidate` is the start time of the candidate (R73). -/
structure InputLine where
  config : InConfig
  raw : Level
  accepted : Level
  reported : Level
  candidate : Option Nat
  spacingEnd : Option Nat
  suppressed : Bool
  counters : InCounters
deriving DecidableEq, Repr

/-! ### Output lines (R85, R86, R98) -/

/-- R98: the five counters of an output line. -/
structure OutCounters where
  applied : Counter
  redundant : Counter
  blocked : Counter
  truncated : Counter
  retriggered : Counter
deriving DecidableEq, Repr

/-- R85, R86: an output line. `pulse` is the end of the active pulse, a point of local time (an integer, since a
backward TIME_SET step moves it, R68). -/
structure OutputLine where
  mode : OutMode
  drive : Drive
  polarity : Polarity
  resting : Level
  pulse : Option Int
  counters : OutCounters
deriving DecidableEq, Repr

/-! ### Span link (R103, R119, R120, R126, R129, R135) -/

/-- R103, R105: the six open parameters, in ticks (the retry limit is a number). -/
structure LinkParams where
  openTimeout : Nat
  ackTimeout : Nat
  retryLimit : Nat
  idleTimeout : Nat
  alignInterval : Nat
  maxDelay : Nat
deriving DecidableEq, Repr

/-- R119 and R135: the seven session counters and the eleven delivery counters, in their order. -/
structure LinkCounters where
  framesSent : Counter
  framesReceived : Counter
  crcErrors : Counter
  rxMalformed : Counter
  rxUnexpected : Counter
  hellosUnanswered : Counter
  txDiscarded : Counter
  retransmits : Counter
  acksIgnored : Counter
  eventsReceived : Counter
  rxClosed : Counter
  rxRefused : Counter
  duplicates : Counter
  outOfOrder : Counter
  probesSent : Counter
  probesAccepted : Counter
  probesRejected : Counter
  echoesIgnored : Counter
deriving DecidableEq, Repr

/-- R22, R120: the event a transmit queue frame carries. -/
structure TxEvent where
  source : Byte
  kind : EventKind
  capture : Nat
  coalesced : Bool
  refresh : Bool
deriving DecidableEq, Repr

/-- R120, R122: a window frame. `isPending` is the send mark; `sentBefore` says that a transmission of it has begun. -/
structure WindowFrame where
  event : TxEvent
  seq : Byte
  retry : Nat
  isPending : Bool
  sentBefore : Bool
deriving DecidableEq, Repr

/-- R131: an ECHO that waits for the lane, its t3 not yet stamped. -/
structure EchoWait where
  number : Byte
  t1 : Quad
  t2 : Nat
deriving DecidableEq, Repr

/-- R102: the frame in transmission; `resend` says that it is an EVENT frame sent before (R122). -/
structure LaneFrame where
  frame : Frame
  resend : Bool
deriving DecidableEq, Repr

/-- The Link Controller's state. A timer is `none` when stopped and `some n` when `n` ticks have passed since its
(re)start. -/
structure Link where
  session : Session
  own : Half
  recorded : Half
  reason : Reason
  params : LinkParams
  openTimer : Option Nat
  helloTimer : Option Nat
  keepTimer : Option Nat
  silenceTimer : Option Nat
  attemptTimer : Option Nat
  attempts : Nat
  counters : LinkCounters
  -- transmit side (R120)
  window : List WindowFrame
  waiting : List TxEvent
  nextSeq : Byte
  ackTimer : Option Nat
  -- receive side (R126)
  expected : Byte
  ackWait : Option Byte
  -- alignment (R129)
  fresh : Bool
  offset : Int
  lastDelay : Int
  nextProbe : Byte
  outstanding : Option (Byte × Nat)
  probeTimer : Option Nat
  staleTimer : Option Nat
  -- frames waiting for the lane (R102) besides the ACK and the window
  closeWait : Option Half
  echoes : List EchoWait
  probes : List Byte
  hellos : List (Half × Half)
  idles : List Half
  lane : Option LaneFrame
deriving DecidableEq, Repr

/-! ### Rings (R143, R152) -/

/-- R143: the command ring. -/
structure CmdRing where
  base : Quad
  size : Nat
  producer : Nat
  consumer : Nat
deriving DecidableEq, Repr

/-- R143: a record assigned to a slot and not yet written. -/
structure RingWrite where
  slot : Nat
  record : HostRecord
deriving DecidableEq, Repr

/-- R143: a completion or event ring; an event ring of size 0 is absent. `writes` are its pending writes, oldest
first. The completion ring has no loss count: its `loss` stays 0 (R148, never lossy). -/
structure OutRing where
  base : Quad
  size : Nat
  producer : Nat
  fill : Nat
  consumer : Nat
  loss : Counter
  writes : List RingWrite
deriving DecidableEq, Repr

/-- R143: the ring geometry and indices, the notice ring selector and the status block address. -/
structure Geometry where
  cmd : CmdRing
  compl : OutRing
  event : Vector OutRing 4
  notice : Option (Fin 4)
  status : Quad
deriving DecidableEq, Repr

/-- R152: the Ring Engine's counters. -/
structure RingCounters where
  commandsTaken : Counter
  completionsPosted : Counter
  posted : Vector Counter 4
  lost : Vector Counter 4
deriving DecidableEq, Repr

/-- R138: the part of the start sequence that waits on the bus. -/
inductive StartStep where
  /-- step 2: the read of the setup block at this address is outstanding -/
  | readingSetup (address : Quad)
  /-- step 6: the status block write is outstanding; the geometry takes effect when it completes -/
  | writingStatus (geometry : Geometry)
deriving DecidableEq, Repr

/-! ### Command Processor (R158, R173, R177, R179) -/

/-- R190: one item of a STATS section: a group that its block reads in one step, or one counter. -/
inductive StatsItem where
  | routeGroup (source : Fin 256)
  | routeCounter (source : Fin 256) (k : Fin 8)
  | inputGroup (line : Fin 16)
  | inputCounter (line : Fin 16) (k : Fin 5)
  | outputGroup (line : Fin 16)
  | outputCounter (line : Fin 16) (k : Fin 5)
  | linkSession
  | linkTransmit
  | linkReceive
  | linkAlignment
  | linkCounter (k : Fin 18)
  | ringsSelector
  | ringsDeferred
  | ringGroup (ring : Fin 6)
  | ringsCounter (k : Fin 10)
  | globalCounter (k : Fin 8)
  | holdDepth
  | holdPeak
  | faultPin
  | faultClass (k : Fin 9)
deriving DecidableEq, Repr

/-- R176, R177: a STATS_READ in flight. `address` is where the next buffer write goes, `todo` the items not yet read,
`record` the record in assembly, `written` the bytes whose writes have completed, `started` local time at the
execution. -/
structure StatsJob where
  clear : Bool
  address : Nat
  todo : List StatsItem
  record : List Byte
  written : Nat
  started : Nat
deriving DecidableEq, Repr

/-- R158: the state a deferred command in flight holds. -/
inductive Job where
  | linkOpen
  | quiesce (deadline elapsed : Nat)
  | statsRead (job : StatsJob)
  | fence (recorded : Nat) (waits : List DeferredKind)
deriving DecidableEq, Repr

/-- R158: a member of the deferred set. -/
structure Deferred where
  tag : Word
  job : Job
deriving DecidableEq, Repr

/-- R8, R80, R161: a REFRESH, or a ROUTE_SET with REFRESH, under execution while its offers are made: the lines whose
turn has not come, the events made and accepted, the events refused, and whether a refusal met a CLOSED intake or the
part left RUNNING before the last offer. -/
structure OfferSet where
  tag : Word
  command : Command
  lines : List (Fin 16)
  made : Nat
  refused : Nat
  closed : Bool
deriving DecidableEq, Repr

/-- R142, R177: bytes written to host memory at an address: a STATS_READ buffer write issued and not completed, or a
write that a device reset or the entry to HALTED left on the bus. -/
structure BufferWrite where
  address : Nat
  bytes : List Byte
deriving DecidableEq, Repr

/-- R146: a write of an index field of the status block, made and not completed. -/
structure IndexWrite where
  field : IndexField
  value : Nat
deriving DecidableEq, Repr

/-! ### Fault Unit (R180) -/

/-- R180: the six items of a fault class. -/
structure FaultState where
  sticky : Bool
  count : BitVec 16
  enabled : Bool
  armed : Bool
  firstContext : Option Word
  firstTime : Option Nat
deriving DecidableEq, Repr

/-- R181: a raise on its way to the Fault Unit. -/
structure Raise where
  cls : FaultClass
  context : Word
deriving DecidableEq, Repr

/-! ### The state of the part -/

/-- Everything the part holds, and the queue of the steps that wait. -/
structure State where
  -- time and part state
  localTime : Nat
  resetHeld : Bool
  part : PartState
  startError : StartError
  starting : Option StartStep
  -- registers
  setupLo : Word
  setupHi : Word
  intCause : BitVec 7
  intEnable : BitVec 7
  intRises : Nat
  intMessages : Nat
  -- Ring Engine
  geom : Option Geometry
  ringCounters : RingCounters
  hostMem : List Host.Cell
  indexWrites : List IndexWrite
  bufWrites : List BufferWrite
  issued : List BufferWrite
  -- Command Processor
  cmdRead : Bool
  executing : Option OfferSet
  deferred : List Deferred
  choices : Nat
  -- intake, Router, Route Table
  intake : List Event
  intakeOpen : Bool
  announcing : List (Fin 16)
  deciding : Option Deciding
  handover : Option Handover
  unrouted : Unrouted
  routes : Vector RouteEntry 256
  -- Hold Queue and Release Unit
  hold : List HoldEntry
  holdCounters : HoldCounters
  discardedAtStop : Counter
  tags : List TagRecord
  delivery : Option Delivery
  -- lines
  inputs : Vector InputLine 16
  outputs : Vector OutputLine 16
  -- span link
  link : Link
  -- Fault Unit
  faults : Vector FaultState 9
  raises : List Raise
  faultNotices : List HostRecord
  linkNotices : List HostRecord
  -- the steps that wait, first in first out
  pending : List Instr
deriving DecidableEq, Repr

/-- The spec names no event at which the machine stops without a next state, so no meaning faults: this type has no
constructor (safe: nothing the hardware does is turned into a stop). -/
inductive Fault where
deriving DecidableEq, Repr

/-- Why a step has no meaning. -/
inductive Refusal where
  /-- Raised by `exec` for a row that has no meaning yet; safe. No row is in this case. -/
  | notModelled (mnemonic : String)
deriving DecidableEq, Repr

/-! ### Reset values (R142, and the tables of R5, R16, R37, R70, R85, R103, R129, R136, R180) -/

/-- R16: the fields of a route entry after device reset. -/
def RouteConfig.reset : RouteConfig :=
  { outputs := 0, rings := 0, forward := false, latency := 0, late := .deliverLate, kinds := 0x1F, width := 0 }

/-- R30: all eight counters 0. -/
def RouteCounters.zero : RouteCounters := ⟨0, 0, 0, 0, 0, 0, 0, 0⟩

/-- R16: a route entry after device reset. -/
def RouteEntry.reset : RouteEntry :=
  { state := .unused, config := RouteConfig.reset, counters := RouteCounters.zero }

/-- R70, R71, R84: input line `n` after device reset, its pin sampled at `raw`. -/
def InputLine.reset (n : Fin 16) (raw : Level) : InputLine :=
  { config := { mode := .off, filter := 0, spacing := 0, source := BitVec.ofNat 8 n.val, announce := false }
    raw := raw, accepted := raw, reported := raw
    candidate := none, spacingEnd := none, suppressed := false
    counters := ⟨0, 0, 0, 0, 0⟩ }

/-- R85, R86, R98: an output line after device reset. -/
def OutputLine.reset : OutputLine :=
  { mode := .disabled, drive := .pushPull, polarity := .activeHigh, resting := .low, pulse := none
    counters := ⟨0, 0, 0, 0, 0⟩ }

/-- R103, R120, R126, R129: the Link Controller after device reset. -/
def Link.reset : Link :=
  { session := .closed, own := 0, recorded := 0, reason := .noReason, params := ⟨0, 0, 0, 0, 0, 0⟩
    openTimer := none, helloTimer := none, keepTimer := none, silenceTimer := none
    attemptTimer := none, attempts := 0
    counters := ⟨0, 0, 0, 0, 0, 0, 0, 0, 0, 0, 0, 0, 0, 0, 0, 0, 0, 0⟩
    window := [], waiting := [], nextSeq := 0, ackTimer := none
    expected := 0, ackWait := none
    fresh := false, offset := 0, lastDelay := 0, nextProbe := 0, outstanding := none
    probeTimer := none, staleTimer := none
    closeWait := none, echoes := [], probes := [], hellos := [], idles := [], lane := none }

/-- R180: a fault class after device reset. -/
def FaultState.reset : FaultState :=
  { sticky := false, count := 0, enabled := true, armed := true, firstContext := none, firstTime := none }

/-- R152: the Ring Engine's counters after device reset. -/
def RingCounters.reset : RingCounters := ⟨0, 0, Vector.replicate 4 0, Vector.replicate 4 0⟩

/-- The part right after a device reset (R142), RESET_N released. DESIGN CHOICE, unsafe: every input pin is first
sampled LOW (log entry 5). -/
def State.reset : State :=
  { localTime := 0
    resetHeld := false
    part := .idle
    startError := .noError
    starting := none
    setupLo := 0
    setupHi := 0
    intCause := 0
    intEnable := 0
    intRises := 0
    intMessages := 0
    geom := none
    ringCounters := RingCounters.reset
    hostMem := []
    indexWrites := []
    bufWrites := []
    issued := []
    cmdRead := false
    executing := none
    deferred := []
    choices := 0
    intake := []
    intakeOpen := false
    announcing := []
    deciding := none
    handover := none
    unrouted := ⟨0, 0, 0⟩
    routes := Vector.replicate 256 RouteEntry.reset
    hold := []
    holdCounters := ⟨0, 0, 0, 0, 0⟩
    discardedAtStop := 0
    tags := []
    delivery := none
    inputs := Vector.ofFn fun n => InputLine.reset n .low
    outputs := Vector.replicate 16 OutputLine.reset
    link := Link.reset
    faults := Vector.replicate 9 FaultState.reset
    raises := []
    faultNotices := []
    linkNotices := []
    pending := [] }

end Sys2Proof.Machine
end

