-- ==== Sys2Proof/Machine/Flags.lean ====
section
/-! DEFINITION. Saturating counters, the interrupt cause and its message, the fault classes and FAULT_N, and the
STATUS register: every flag the spec has the part compute. -/

namespace Sys2Proof.Machine

/-! ### Counters (R188) -/

/-- R188: a counter one higher, staying at 4,294,967,295 once there. -/
def bump (c : Counter) : Counter :=
  if c = BitVec.allOnes 32 then c else c + 1

/-- R188: a counter increased by `n`, staying at 4,294,967,295 once there. -/
def bumpBy (n : Nat) (c : Counter) : Counter :=
  if 2 ^ 32 - 1 ≤ c.toNat + n then BitVec.allOnes 32 else BitVec.ofNat 32 (c.toNat + n)

/-- R182: a fault class's occurrence count one higher, staying at 65,535 once there. -/
def bump16 (c : BitVec 16) : BitVec 16 :=
  if c = BitVec.allOnes 16 then c else c + 1

/-! ### Interrupts (R153, R154) -/

/-- R154: the interrupt condition holds while some bit is set in both INT_CAUSE and INT_ENABLE. -/
def intCondition (cause enable : BitVec 7) : Bool := cause &&& enable != 0

/-- R154: the interrupt registers take new values; one interrupt message is sent if the condition goes from false to
true and message interrupts are enabled then (log entry 14). -/
def setIntRegs (cause enable : BitVec 7) (s : State) : State :=
  let rises := !intCondition s.intCause s.intEnable && intCondition cause enable
  { s with
    intCause := cause
    intEnable := enable
    intRises := if rises then s.intRises + 1 else s.intRises
    intMessages :=
      if rises then (if Config.messageInterruptsOn s.intRises then s.intMessages + 1 else s.intMessages)
      else s.intMessages }

/-- R153: the INT_CAUSE bit of a cause. -/
def Cause.mask (c : Cause) : BitVec 7 := BitVec.ofNat 7 (2 ^ c.bit)

/-- R153: an interrupt cause is set. -/
def setCause (c : Cause) (s : State) : State :=
  setIntRegs (s.intCause ||| c.mask) s.intEnable s

/-! ### The Fault Unit (R180 to R187) -/

/-- The part writes records in RUNNING and STOPPING alone (R136). -/
def postsRecords (p : PartState) : Bool := p == .running || p == .stopping

/-- The state of a fault class. -/
def faultOf (s : State) (c : FaultClass) : FaultState := s.faults[c.code]

/-- R184: FAULT_N is asserted while any report-enabled class is sticky. -/
def faultAsserted (s : State) : Bool :=
  allFaultClasses.any fun c => (faultOf s c).enabled && (faultOf s c).sticky

/-- R152: the notice ring, if the setup block names one. -/
def noticeRing (s : State) : Option (Fin 4) := s.geom.bind fun g => g.notice

/-- R118, R183: a FAULT notice is handed to the Ring Engine; with the selector NONE it is not taken (R152). -/
def postFaultNotice (r : HostRecord) (s : State) : State :=
  if (noticeRing s).isSome then { s with faultNotices := s.faultNotices ++ [r] } else s

/-- R118: a LINK notice is handed to the Ring Engine; with the selector NONE it is not taken (R152). -/
def postLinkNotice (r : HostRecord) (s : State) : State :=
  if (noticeRing s).isSome then { s with linkNotices := s.linkNotices ++ [r] } else s

/-- R182, R183: a fault class after a raise taken at `now`, in a part that posts records or not. -/
def FaultState.raised (f : FaultState) (context : Word) (now : Nat) (posts : Bool) : FaultState :=
  { f with
    sticky := true
    count := bump16 f.count
    armed := f.armed && !(f.enabled && posts)
    firstContext := if f.sticky then f.firstContext else some context
    firstTime := if f.sticky then f.firstTime else some now }

/-- R182 to R184: the Fault Unit takes a raise. It counts it, sets the sticky flag with the first context and time,
posts the episode's notice if the class is armed and enabled and the part is RUNNING or STOPPING, and sets the FAULT
cause if the class becomes sticky while enabled. -/
def takeRaise (r : Raise) (s : State) : State :=
  let f := faultOf s r.cls
  let posts := postsRecords s.part
  let s1 := { s with faults := s.faults.set r.cls.code (f.raised r.context s.localTime posts) }
  let s2 := if f.armed && f.enabled && posts then postFaultNotice (.fault r.cls r.context s.localTime) s1 else s1
  if !f.sticky && f.enabled then setCause .fault s2 else s2

/-- R181: a block raises a fault class; the raise waits for the Fault Unit (R185, log entry 7). -/
def raiseFault (cls : FaultClass) (context : Word) (s : State) : State :=
  { s with raises := s.raises ++ [⟨cls, context⟩] }

/-- R186: clearing a class: flag clear, count 0, first context and time absent, notice armed, mask bit kept. -/
def FaultState.cleared (f : FaultState) : FaultState :=
  { f with sticky := false, count := 0, armed := true, firstContext := none, firstTime := none }

/-! ### STATUS (13.5) -/

/-- 13.5: the word STATUS shows. -/
def statusWord (s : State) : Word :=
  BitVec.ofNat 32 (s.part.code + 16 * s.startError.code + 256 * s.intakeOpen.toNat
    + 512 * s.link.session.code + 4096 * (faultAsserted s).toNat)

end Sys2Proof.Machine
end

