-- ==== Sys2Proof/Machine/Ops.lean ====
section
/-! DEFINITION. The operations that several steps share: host memory writes, ring records, completions and the
deferred set, intake offers, the Hold Queue list, the tag memory, and mapping over the lines. -/

namespace Sys2Proof.Machine

/-! ### Banks of like things -/

/-- `f` on every member of a bank. -/
def mapBank {α β : Type} {n : Nat} (f : α → β) (v : Vector α n) : Vector β n :=
  Vector.ofFn fun i => f v[i]

/-- A set of lines or rings without member `i`. -/
def without {n : Nat} (x : BitVec n) (i : Nat) : BitVec n := x &&& ~~~(BitVec.ofNat n (2 ^ i))

/-- Input line `n` becomes `l`. -/
def setInput (n : Fin 16) (l : InputLine) (s : State) : State := { s with inputs := s.inputs.set n l }

/-- Output line `n` becomes `l`. -/
def setOutput (n : Fin 16) (l : OutputLine) (s : State) : State := { s with outputs := s.outputs.set n l }

/-- A source ID as the index of its route entry (R14). -/
def routeIndex (source : Byte) : Fin 256 := ⟨source.toNat, source.isLt⟩

/-- R14: the route entry of a source ID. -/
def routeOf (s : State) (source : Byte) : RouteEntry := s.routes[routeIndex source]

/-- The route entry of a source ID becomes `r`. -/
def setRoute (source : Byte) (r : RouteEntry) (s : State) : State :=
  { s with routes := s.routes.set (routeIndex source) r }

/-- The link state becomes `f` of itself. -/
def onLink (f : Link → Link) (s : State) : State := { s with link := f s.link }

/-! ### Host memory (R146, R197; log entry 12) -/

/-- What the part last wrote at an address; `none` where it has written nothing. -/
def Memory.read : List Host.Cell → Nat → Option Byte
  | [], _ => none
  | (a', b) :: m, a => if a' = a then some b else Memory.read m a

/-- One byte written; addresses stay strictly rising. -/
def Memory.write : List Host.Cell → Nat → Byte → List Host.Cell
  | [], a, b => [(a, b)]
  | (a', b') :: m, a, b =>
      if a < a' then (a, b) :: (a', b') :: m
      else if a = a' then (a, b) :: m
      else (a', b') :: Memory.write m a b

/-- Bytes written from an address upward. -/
def Memory.writeBytes : List Host.Cell → Nat → List Byte → List Host.Cell
  | m, _, [] => m
  | m, a, b :: bs => Memory.writeBytes (Memory.write m a b) (a + 1) bs

/-- The canonical form: addresses strictly rising. An unlisted address reads as "never written by the part", which no
entry can equal. -/
abbrev Memory.wf (m : List Host.Cell) : Prop := (m.map Prod.fst).Pairwise (· < ·)

/-- The part writes bytes into host memory. -/
def writeHost (address : Nat) (bytes : List Byte) (s : State) : State :=
  { s with hostMem := Memory.writeBytes s.hostMem address bytes }

/-- 13.2: where an index field stands in the status block. -/
def indexOffset : IndexField → Nat
  | .command => 0
  | .completion => 4
  | .event ring => 8 + 4 * ring.val

/-- R146: a 4-byte index field of the status block is written. -/
def writeIndex (status : Quad) (offset value : Nat) (s : State) : State :=
  writeHost (status.toNat + offset) (le 4 value) s

/-- R146: the write of an index field is made, behind those that have not completed (log entry 39). -/
def makeIndexWrite (field : IndexField) (value : Nat) (s : State) : State :=
  { s with indexWrites := s.indexWrites ++ [⟨field, value⟩] }

/-- R146, R147: the writes of the command consumer index that have been made complete, in the order made. -/
def commandIndexWritten (s : State) : State :=
  match s.geom with
  | none => s
  | some g =>
      let isCommand := fun w : IndexWrite => w.field == .command
      (s.indexWrites.filter isCommand).foldl (fun t w => writeIndex g.status (indexOffset w.field) w.value t)
        { s with indexWrites := s.indexWrites.filter fun w => !isCommand w }

/-! ### Rings (R143, R148 to R151) -/

/-- R143: the unconsumed records of a ring. -/
def OutRing.unconsumed (r : OutRing) : Nat := (r.fill + r.size - r.consumer) % r.size

/-- R143: free slots are N−1 less the unconsumed records. -/
def OutRing.free (r : OutRing) : Nat := r.size - 1 - r.unconsumed

/-- R143: a record is assigned the slot at the fill index, and the fill index is incremented. -/
def OutRing.assign (record : HostRecord) (r : OutRing) : OutRing :=
  { r with fill := (r.fill + 1) % r.size, writes := r.writes ++ [⟨r.fill, record⟩] }

/-- R150, R151: a record taken with two free slots or more, behind a LOSS record when the loss count is not 0. -/
def OutRing.post (record : HostRecord) (r : OutRing) : OutRing :=
  if r.loss = 0 then r.assign record
  else OutRing.assign record { r.assign (.loss r.loss) with loss := 0 }

/-- R143, R14: event ring `ring` is present in the current geometry. -/
def ringPresent (s : State) (ring : Fin 4) : Bool :=
  match s.geom with
  | none => false
  | some g => g.event[ring].size != 0

/-- R24: the present event rings as a set. -/
def presentRings (s : State) : BitVec 4 :=
  (if ringPresent s 0 then 1 else 0) ||| (if ringPresent s 1 then 2 else 0)
    ||| (if ringPresent s 2 then 4 else 0) ||| (if ringPresent s 3 then 8 else 0)

/-- R143: the address of a slot of a ring. -/
def OutRing.slotAddress (r : OutRing) (slot : Nat) : Nat := r.base.toNat + 32 * slot

/-- R142: the pending writes of a ring as bytes at addresses, oldest first. -/
def OutRing.writesOut (r : OutRing) : List BufferWrite :=
  r.writes.map fun w => ⟨r.slotAddress w.slot, w.record.bytes⟩

/-- R142: an index write as bytes at an address. -/
def IndexWrite.out (status : Quad) (w : IndexWrite) : BufferWrite :=
  ⟨status.toNat + indexOffset w.field, le 4 w.value⟩

/-- R142: the host memory writes of the part that may be on the bus: the status block write of the start, the records
assigned and not yet written, the index writes made, and the STATS_READ buffer writes. -/
def outstandingWrites (s : State) : List BufferWrite :=
  (match s.starting with
    | some (.writingStatus g) => [⟨g.status.toNat, zeros 64⟩]
    | some (.readingSetup _) => []
    | none => [])
  ++ (match s.geom with
    | some g => g.compl.writesOut ++ g.event[0].writesOut ++ g.event[1].writesOut ++ g.event[2].writesOut
        ++ g.event[3].writesOut ++ s.indexWrites.map (IndexWrite.out g.status)
    | none => [])
  ++ s.bufWrites

/-- Event ring `ring` becomes `r`. -/
def Geometry.setEvent (ring : Fin 4) (r : OutRing) (g : Geometry) : Geometry :=
  { g with event := g.event.set ring r }

/-- R150, R151: the Ring Engine takes a record for an event ring. With two free slots or more it is posted; with fewer
it is lost and counted, and RING_LOSS is raised if the loss count was 0. A record for an absent ring is not taken. -/
def takeRecord (ring : Fin 4) (record : HostRecord) (s : State) : State :=
  match s.geom with
  | none => s
  | some g =>
    let r := g.event[ring]
    if r.size = 0 then s
    else if 2 ≤ r.free then { s with geom := some (g.setEvent ring (r.post record)) }
    else
      let s1 := { s with
        geom := some (g.setEvent ring { r with loss := bump r.loss })
        ringCounters := { s.ringCounters with
          lost := s.ringCounters.lost.set ring (bump s.ringCounters.lost[ring]) } }
      if r.loss = 0 then raiseFault .ringLoss (BitVec.ofNat 32 ring.val) s1 else s1

/-- R149: the Ring Engine takes a completion record and assigns it the slot at the completion fill index. -/
def handCompletion (kind : Byte) (tag : Word) (status : Status) (w1 w2 w3 : Word) (s : State) : State :=
  match s.geom with
  | none => s
  | some g => { s with geom := some { g with compl := g.compl.assign (.completion kind tag status w1 w2 w3) } }

/-! ### The deferred set (R158, R173, R174, R179) -/

/-- R158: the kind of a deferred command in flight. -/
def Job.kind : Job → DeferredKind
  | .linkOpen => .linkOpen
  | .quiesce _ _ => .quiesce
  | .statsRead _ => .statsRead
  | .fence _ _ => .fence

/-- R158: the command of a kind in flight, if any. -/
def findDeferred (k : DeferredKind) (s : State) : Option Deferred :=
  s.deferred.find? fun d => d.job.kind == k

/-- R158: a command of a kind is in flight. -/
def inFlight (k : DeferredKind) (s : State) : Bool := (findDeferred k s).isSome

/-- R179: a FENCE's record without a kind that has completed. -/
def Deferred.strike (k : DeferredKind) (d : Deferred) : Deferred :=
  match d.job with
  | .fence n waits => { d with job := .fence n (waits.filter (· != k)) }
  | .linkOpen => d
  | .quiesce _ _ => d
  | .statsRead _ => d

/-- R158, R179: a kind leaves the deferred set and is struck from the FENCE's record. -/
def leaveDeferred (k : DeferredKind) (ds : List Deferred) : List Deferred :=
  (ds.filter fun d => d.job.kind != k).map (Deferred.strike k)

/-- R158: the deferred command of a kind in flight completes: it leaves the set and its completion is handed to the
Ring Engine. -/
def finishDeferred (k : DeferredKind) (status : Status) (w1 w2 w3 : Word) (s : State) : State :=
  match findDeferred k s with
  | none => s
  | some d =>
    handCompletion k.commandCode d.tag status w1 w2 w3 { s with deferred := leaveDeferred k s.deferred }

/-- R158: a deferred command joins the set, as the latest taken. -/
def joinDeferred (tag : Word) (job : Job) (s : State) : State :=
  { s with deferred := s.deferred ++ [⟨tag, job⟩] }

/-- R9, R41: an event is under the Router's decision: before its comparison, or waiting for the Release Unit. -/
def underDecision (s : State) : Bool := s.deciding.isSome || s.handover.isSome

/-- R174: events in the intake, counting one under the Router's decision. -/
def intakeLoad (s : State) : Nat := s.intake.length + (underDecision s).toNat

/-- R173: the QUIESCE condition: the intake is empty (R11) and the Hold Queue reports release quiet (R58). -/
def quiesceHolds (s : State) : Bool :=
  s.intake.isEmpty && !underDecision s && s.hold.isEmpty && s.delivery.isNone

/-- R174: the QUIESCE in flight, when its condition holds; the value is its elapsed ticks. -/
def quiesceReady (s : State) : Option Nat :=
  match findDeferred .quiesce s with
  | some ⟨_, .quiesce _ elapsed⟩ => if quiesceHolds s then some elapsed else none
  | _ => none

/-- R179: the FENCE in flight, when its record is empty; the value is the number recorded. -/
def fenceReady (s : State) : Option Nat :=
  match findDeferred .fence s with
  | some ⟨_, .fence recorded []⟩ => some recorded
  | _ => none

/-- R174: a QUIESCE in flight completes OK when its condition has come to hold. -/
def settleQuiesce (s : State) : State :=
  match quiesceReady s with
  | some elapsed => finishDeferred .quiesce .ok (BitVec.ofNat 32 elapsed) 0 0 s
  | none => s

/-- R179: a FENCE in flight completes OK when the last command it recorded has completed. -/
def settleFence (s : State) : State :=
  match fenceReady s with
  | some recorded => finishDeferred .fence .ok (BitVec.ofNat 32 recorded) 0 0 s
  | none => s

/-- The deferred commands whose conditions have come to hold complete: the QUIESCE, then the FENCE that may have waited
for it (R174, R179). -/
def settle (s : State) : State :=
  if postsRecords s.part then settleFence (settleQuiesce s) else s

/-- Whether `settle` has something to complete. -/
def needsSettle (s : State) : Bool :=
  postsRecords s.part && ((quiesceReady s).isSome || (fenceReady s).isSome)

/-- R157, R159: the completion of an immediate command. A deferred command whose condition the command's own effect has
brought about completes after it, or before it (free choice, log entry 9). -/
def finishImmediate (kind : Byte) (tag : Word) (status : Status) (w1 w2 w3 : Word) (s : State) : State :=
  if needsSettle s then
    let s1 := { s with choices := s.choices + 1 }
    if Config.deferredFirst s.choices then handCompletion kind tag status w1 w2 w3 (settle s1)
    else settle (handCompletion kind tag status w1 w2 w3 s1)
  else handCompletion kind tag status w1 w2 w3 s

/-! ### Taking commands (R147, R148) -/

/-- R148: the free slots of the completion ring exceed the number of deferred commands in flight. -/
def reservationAllows (g : Geometry) (s : State) : Bool := decide (s.deferred.length < g.compl.free)

/-- R147: the Command Processor may take a command: RUNNING, a record not yet read, no take under way, no command under
execution, and the reservation allows it. -/
def mayFetch (s : State) : Bool :=
  match s.geom with
  | none => false
  | some g =>
      s.part == .running && !s.cmdRead && s.executing.isNone && g.cmd.consumer != g.cmd.producer
        && reservationAllows g s

/-- R147: the read of the command record at the consumer index is issued when the Command Processor may take one. -/
def commandFetch (s : State) : State :=
  if mayFetch s then { s with cmdRead := true } else s

/-- R147: the command record's read has returned and the command is taken: the consumer index is incremented, its write
to the status block is made, and commands_taken is incremented. -/
def takeCommand (s : State) : State :=
  match s.geom with
  | none => s
  | some g =>
    let c := (g.cmd.consumer + 1) % g.cmd.size
    makeIndexWrite .command c { s with
      cmdRead := false
      geom := some { g with cmd := { g.cmd with consumer := c } }
      ringCounters := { s.ringCounters with commandsTaken := bump s.ringCounters.commandsTaken } }

/-! ### The intake (R6) -/

/-- R6: the intake's answer to an offer, on its list and condition as they stand. -/
def offerAnswer (s : State) : OfferAnswer :=
  if !s.intakeOpen then .closed
  else if Config.intakeCapacity ≤ s.intake.length then .full
  else .accepted

/-- R6: the intake after an offer: an accepted event is appended after the newest entry. -/
def offerEvent (e : Event) (s : State) : State :=
  match offerAnswer s with
  | .accepted => { s with intake := s.intake ++ [e] }
  | .full => s
  | .closed => s

/-! ### The Hold Queue list and the tag memory (R38, R48, R50, R55, R56) -/

/-- R38: the new entry stands after every entry whose R is less than or equal to its R. -/
def holdInsert (h : HoldEntry) : List HoldEntry → List HoldEntry
  | [] => [h]
  | x :: xs => if x.release ≤ h.release then x :: holdInsert h xs else h :: x :: xs

/-- R48: an entry a CANCEL of `tag` removes: its origin is HOST and its tag is the given one. -/
def HoldEntry.hasTag (tag : Word) (h : HoldEntry) : Bool :=
  match h.event.origin with
  | .host t => t == tag
  | .line _ => false
  | .link => false

/-- R55: the tag memory after an accepted SCHEDULE of `tag`. -/
def tagsAfterSchedule (tag : Word) (ts : List TagRecord) : List TagRecord :=
  match ts.find? fun t => t.tag == tag with
  | some r => (ts.filter fun t => t.tag != tag) ++ [r]
  | none => (if ts.length < Config.tagCapacity then ts else ts.drop 1) ++ [⟨tag, false⟩]

/-- R56: the forwarded bit of the record holding `tag` is set; the record keeps its place. -/
def tagsAfterForward (tag : Word) (ts : List TagRecord) : List TagRecord :=
  ts.map fun t => if t.tag == tag then { t with forwarded := true } else t

/-! ### Capture and pulses of all lines (R71, R96) -/

/-- R71: a reset of capture state. -/
def InputLine.resetCapture (l : InputLine) : InputLine :=
  { l with accepted := l.raw, reported := l.raw, candidate := none, spacingEnd := none, suppressed := false }

/-- R71: the capture state of every line is reset. -/
def resetCapture (s : State) : State := { s with inputs := mapBank InputLine.resetCapture s.inputs }

/-- R96, R97: an active pulse is ended without an expiry; no counter changes. -/
def endPulses (s : State) : State := { s with outputs := mapBank (fun o => { o with pulse := none }) s.outputs }

end Sys2Proof.Machine
end

