-- ==== Sys2Proof/Machine/Operands.lean ====
section
/-! DEFINITION. The operand forms of the host commands and of received frames: which field values are in range
(R156, R197 and each kind's rule) and what a field in range stands for. -/

namespace Sys2Proof.Machine

/-- R197: a flag field holds 0 or 1. -/
def isFlag (b : Byte) : Bool := b == 0 || b == 1

/-- R197: a set field names no member above its last. -/
def setInRange (members value : Nat) : Bool := decide (value < 2 ^ members)

/-- The line a line number in range names. -/
def lineOf (b : Byte) : Fin 16 := ⟨b.toNat % 16, Nat.mod_lt _ (by decide)⟩

/-- R70, R85, R95: a line number is 0 to 15. -/
def lineInRange (b : Byte) : Bool := decide (b.toNat < 16)

/-- R161 to R163, R168: a source ID is 0 to 255. -/
def sourceInRange (s : Half) : Bool := decide (s.toNat ≤ 255)

/-- The source ID of a field in range. -/
def sourceOf (s : Half) : Byte := s.setWidth 8

/-- 13.1: the level of a level code. -/
def levelOf (b : Nat) : Level := if b = 0 then .low else .high

/-- The other level. -/
def Level.flip : Level → Level
  | .low => .high
  | .high => .low

/-- The bit of a level. -/
def Level.isHigh : Level → Bool
  | .low => false
  | .high => true

/-! ### Route commands -/

/-- R31, R161: every field of a ROUTE_SET is in range, the ring geometry check included. -/
def routeSetInRange (s : State) (f : RouteSetFields) : Bool :=
  sourceInRange f.source
    && (f.state == 1 || f.state == 2)
    && isFlag f.forward
    && setInRange 16 f.outputs.toNat
    && setInRange 4 f.rings.toNat
    && ((f.rings.setWidth 4 &&& ~~~presentRings s) == 0)
    && setInRange 5 f.kinds.toNat
    && isFlag f.late
    && isFlag f.refresh
    && decide (f.latency.toNat ≤ 16777215)
    && decide (f.width.toNat ≤ 65535)

/-- 13.2: the state a ROUTE_SET names. -/
def routeSetState (f : RouteSetFields) : RouteState := if f.state = 1 then .active else .suspended

/-- R31: the entry fields a ROUTE_SET gives. -/
def routeSetConfig (f : RouteSetFields) : RouteConfig :=
  { outputs := f.outputs.setWidth 16
    rings := f.rings.setWidth 4
    forward := f.forward == 1
    latency := f.latency.setWidth 24
    late := if f.late = 0 then .deliverLate else .discard
    kinds := f.kinds.setWidth 5
    width := f.width.setWidth 16 }

/-- R162: every field of a ROUTE_CLEAR is in range. -/
def routeClearInRange (f : RouteClearFields) : Bool := sourceInRange f.source && isFlag f.purge

/-! ### Line commands -/

/-- R82: every field of a LINE_IN_CONFIG is in range. -/
def lineInInRange (f : LineInFields) : Bool :=
  lineInRange f.line && decide (f.mode.toNat < 4) && isFlag f.announce && decide (f.filter.toNat ≤ 4095)
    && decide (f.spacing.toNat ≤ 1048575) && sourceInRange f.source

/-- 13.2: the input mode of a code in range. -/
def inModeOf (b : Byte) : InMode :=
  if b = 0 then .off else if b = 1 then .riseOnly else if b = 2 then .fallOnly else .both

/-- R82: the five settings a LINE_IN_CONFIG gives. -/
def lineInConfigOf (f : LineInFields) : InConfig :=
  { mode := inModeOf f.mode
    filter := f.filter.setWidth 12
    spacing := f.spacing.setWidth 20
    source := sourceOf f.source
    announce := f.announce == 1 }

/-- R93: every field of a LINE_OUT_CONFIG is in range. -/
def lineOutInRange (f : LineOutFields) : Bool :=
  lineInRange f.line && decide (f.mode.toNat < 3) && isFlag f.drive && isFlag f.polarity && isFlag f.resting

/-- 13.2: the output mode of a code in range. -/
def outModeOf (b : Byte) : OutMode := if b = 0 then .disabled else if b = 1 then .routed else .host

/-- R95: every field an OUTPUT_SET reads is in range; the level is read for LEVEL and the width for PULSE (R166, log
entry 18). -/
def outputSetInRange (f : OutputSetFields) : Bool :=
  lineInRange f.line && isFlag f.action
    && (if f.action = 0 then isFlag f.level else decide (1 ≤ f.width.toNat ∧ f.width.toNat ≤ 65535))

/-- R166: the event kind an OUTPUT_SET acts as: LEVEL states a level, PULSE gives a pulse. -/
def outputSetKind (f : OutputSetFields) : EventKind :=
  if f.action = 0 then .state (levelOf f.level.toNat) else .pulse (f.width.setWidth 16)

/-- R167: a line set names no line above 15. -/
def refreshInRange (lines : Word) : Bool := setInRange 16 lines.toNat

/-! ### Host events, time, link -/

/-- R1, R126, R168: the event kind of a kind code and a parameter; `none` when the code is none of the five or the
parameter is out of the kind's range. The parameter is not read for RISE and FALL. -/
def eventKindOf (kind : Byte) (param : Nat) : Option EventKind :=
  if kind = 0 then some .rise
  else if kind = 1 then some .fall
  else if kind = 2 then (if param ≤ 1 then some (.state (levelOf param)) else none)
  else if kind = 3 then
    (if 1 ≤ param ∧ param ≤ 65535 then some (.pulse (BitVec.ofNat 16 param)) else none)
  else if kind = 4 then (if param ≤ 65535 then some (.mark (BitVec.ofNat 16 param)) else none)
  else none

/-- R168: the event kind of a SCHEDULE in range, or `none` when a field is out of range. -/
def scheduleKind (f : ScheduleFields) : Option EventKind :=
  if sourceInRange f.source && decide (f.stamp.toNat < 2 ^ 63) then eventKindOf f.kind f.param.toNat else none

/-- R65: a new time is in range below 2^63. -/
def timeSetInRange (t : Quad) : Bool := decide (t.toNat < 2 ^ 63)

/-- R105: every parameter of a LINK_OPEN is in range. -/
def linkOpenInRange (f : LinkOpenFields) : Bool :=
  decide (1 ≤ f.openTimeout.toNat)
    && decide (1 ≤ f.ackTimeout.toNat ∧ f.ackTimeout.toNat ≤ 1000)
    && decide (1 ≤ f.retryLimit.toNat ∧ f.retryLimit.toNat ≤ 7)
    && decide (10 ≤ f.idleTimeout.toNat)
    && decide (1 ≤ f.alignInterval.toNat ∧ f.alignInterval.toNat ≤ 1000)
    && decide (1 ≤ f.maxDelay.toNat)

/-- R105: the six parameters converted to ticks. -/
def linkParamsOf (f : LinkOpenFields) : LinkParams :=
  { openTimeout := f.openTimeout.toNat * Config.ticksPerMs
    ackTimeout := f.ackTimeout.toNat * Config.ticksPerUs
    retryLimit := f.retryLimit.toNat
    idleTimeout := f.idleTimeout.toNat * Config.ticksPerUs
    alignInterval := f.alignInterval.toNat * Config.ticksPerMs
    maxDelay := f.maxDelay.toNat }

/-! ### STATS_READ and FAULTS -/

/-- R176: the sections a section set selects, in the order of R177. -/
def sectionsOf (set : Byte) : List Section6 := allSections.filter fun x => set.getLsbD x.code

/-- R176: the sum of the sizes of the selected sections. -/
def sectionsSize (set : Byte) : Nat := ((sectionsOf set).map Section6.size).sum

/-- R176: every field of a STATS_READ is in range. -/
def statsReadInRange (f : StatsReadFields) : Bool :=
  setInRange 6 f.sections.toNat && f.sections != 0 && isFlag f.clear
    && decide (f.address.toNat % 64 = 0)
    && decide (sectionsSize f.sections ≤ f.length.toNat)
    && decide (f.address.toNat + f.length.toNat ≤ 2 ^ 64)

/-- R178: every field of a FAULTS is in range. -/
def faultsInRange (f : FaultsFields) : Bool :=
  setInRange 9 f.clear.toNat && setInRange 9 f.mask.toNat && isFlag f.maskWrite && decide (f.query.toNat < 9)

/-- The fault class index of a query field in range. -/
def queryIndex (b : Byte) : Fin 9 := ⟨b.toNat % 9, Nat.mod_lt _ (by decide)⟩

/-! ### The setup block (R139) -/

/-- R139: a power of two from 16 to 4096. -/
def validRingSize (n : Nat) : Bool := [16, 32, 64, 128, 256, 512, 1024, 2048, 4096].contains n

/-- 13.2: the notice ring selector of a byte: NONE (FFh) or a ring; the outer `none` is a byte of neither kind. -/
def noticeOf (b : Byte) : Option (Option (Fin 4)) :=
  if b = 0xFF then some none
  else if h : b.toNat < 4 then some (some ⟨b.toNat, h⟩)
  else none

/-- R139: the regions of the present rings and of the status block, each a start and a length. -/
def setupRegions (b : SetupBlock) : List (Nat × Nat) :=
  (b.cmdBase.toNat, 32 * b.cmdSize.toNat) :: (b.complBase.toNat, 32 * b.complSize.toNat)
    :: (b.status.toNat, 64)
    :: ((List.finRange 4).filter fun i => b.eventSize[i] != 0).map
        fun i => (b.eventBase[i].toNat, 32 * b.eventSize[i].toNat)

/-- R139, first table: the value checks. -/
def setupValuesValid (b : SetupBlock) : Bool :=
  b.version == 1
    && validRingSize b.cmdSize.toNat && validRingSize b.complSize.toNat
    && ((List.finRange 4).all fun i => b.eventSize[i] == 0 || validRingSize b.eventSize[i].toNat)
    && (match noticeOf b.notice with
        | none => false
        | some none => true
        | some (some r) => b.eventSize[r] != 0)
    && ((setupRegions b).all fun r => decide (r.1 + r.2 ≤ 2 ^ 64))

/-- R139: the base of every present ring and the status block address are multiples of 64. -/
def setupAligned (b : SetupBlock) : Bool := (setupRegions b).all fun r => decide (r.1 % 64 = 0)

/-- Two regions share no byte. -/
def disjointRegions (p q : Nat × Nat) : Bool := decide (p.1 + p.2 ≤ q.1 ∨ q.1 + q.2 ≤ p.1)

/-- R139: the regions are pairwise disjoint. -/
def pairwiseDisjoint : List (Nat × Nat) → Bool
  | [] => true
  | r :: rs => rs.all (disjointRegions r) && pairwiseDisjoint rs

/-- R138, steps 3 to 5: the first check of the setup block that fails. -/
def setupError (b : SetupBlock) : StartError :=
  if !setupValuesValid b then .badSize
  else if !setupAligned b then .badAlign
  else if !pairwiseDisjoint (setupRegions b) then .overlap
  else .noError

/-- R143: a ring right after START, every index and the loss count 0. -/
def freshRing (base : Quad) (size : Word) : OutRing :=
  { base := base, size := size.toNat, producer := 0, fill := 0, consumer := 0, loss := 0, writes := [] }

/-- R143: the geometry a setup block gives. The base of an event ring of size 0 is not read (R139) and is held as 0. -/
def geometryOf (b : SetupBlock) : Geometry :=
  { cmd := { base := b.cmdBase, size := b.cmdSize.toNat, producer := 0, consumer := 0 }
    compl := freshRing b.complBase b.complSize
    event := Vector.ofFn fun i =>
      freshRing (if b.eventSize[i] = 0 then 0 else b.eventBase[i]) b.eventSize[i]
    notice := (noticeOf b.notice).getD none
    status := b.status }

end Sys2Proof.Machine
end

