-- ==== Sys2Proof/Decode.lean ====
section
/-! DEFINITION. What bytes stand for: the command records of 13.2 and the frames of 13.4 as steps, and the command record
of a command. The opcode table gives no row bits, so `decodeTableWord` reads none (log entry 23). -/

namespace Sys2Proof

open Sys2Proof.Machine

/-- The rows of the opcode table have no bits: no word spells a step (log entry 23). -/
def decodeTableWord (_nbits _w : Nat) : Option Instr := none

/-! ### Command records (13.2) -/

/-- One byte of a record. -/
def byteAt (r : List Byte) (offset : Nat) : Byte := BitVec.ofNat 8 (fieldAt r offset 1)

/-- A 16-bit field of a record. -/
def halfAt (r : List Byte) (offset : Nat) : Half := BitVec.ofNat 16 (fieldAt r offset 2)

/-- A 32-bit field of a record. -/
def wordAt (r : List Byte) (offset : Nat) : Word := BitVec.ofNat 32 (fieldAt r offset 4)

/-- A 64-bit field of a record. -/
def quadAt (r : List Byte) (offset : Nat) : Quad := BitVec.ofNat 64 (fieldAt r offset 8)

/-- 13.2: the fields of a ROUTE_SET record. -/
def routeSetAt (r : List Byte) : RouteSetFields :=
  { source := halfAt r 8, state := byteAt r 10, forward := byteAt r 11, outputs := wordAt r 12, rings := byteAt r 16
    kinds := byteAt r 17, late := byteAt r 18, refresh := byteAt r 19, latency := wordAt r 20, width := wordAt r 24 }

/-- 13.2: the fields of a LINE_IN_CONFIG record. -/
def lineInAt (r : List Byte) : LineInFields :=
  { line := byteAt r 8, mode := byteAt r 9, announce := byteAt r 10, filter := halfAt r 12, source := halfAt r 14
    spacing := wordAt r 16 }

/-- 13.2: the fields of a LINE_OUT_CONFIG record. -/
def lineOutAt (r : List Byte) : LineOutFields :=
  { line := byteAt r 8, mode := byteAt r 9, drive := byteAt r 10, polarity := byteAt r 11, resting := byteAt r 12 }

/-- 13.2: the fields of an OUTPUT_SET record. -/
def outputSetAt (r : List Byte) : OutputSetFields :=
  { line := byteAt r 8, action := byteAt r 9, level := byteAt r 10, width := wordAt r 12 }

/-- 13.2: the fields of a SCHEDULE record. -/
def scheduleAt (r : List Byte) : ScheduleFields :=
  { source := halfAt r 8, kind := byteAt r 10, param := wordAt r 12, stamp := quadAt r 16, eventTag := wordAt r 24 }

/-- 13.2: the fields of a LINK_OPEN record. -/
def linkOpenAt (r : List Byte) : LinkOpenFields :=
  { openTimeout := halfAt r 8, ackTimeout := halfAt r 10, retryLimit := byteAt r 12, idleTimeout := halfAt r 14
    alignInterval := halfAt r 16, maxDelay := halfAt r 18 }

/-- 13.2: the fields of a STATS_READ record. -/
def statsReadAt (r : List Byte) : StatsReadFields :=
  { address := quadAt r 8, length := wordAt r 16, sections := byteAt r 20, clear := byteAt r 21 }

/-- 13.2: the fields of a FAULTS record. -/
def faultsAt (r : List Byte) : FaultsFields :=
  { clear := halfAt r 8, mask := halfAt r 10, maskWrite := byteAt r 12, query := byteAt r 13 }

/-- 13.2: the command of a record: byte 0 is its kind code, and the part reads only the bytes the kind names (R197). -/
def commandAt (r : List Byte) : Command :=
  match (byteAt r 0).toNat with
  | 0x01 => .routeSet (routeSetAt r)
  | 0x02 => .routeClear { source := halfAt r 8, purge := byteAt r 10 }
  | 0x03 => .routeSuspend (halfAt r 8)
  | 0x04 => .routeResume (halfAt r 8)
  | 0x05 => .lineInConfig (lineInAt r)
  | 0x06 => .lineOutConfig (lineOutAt r)
  | 0x07 => .outputSet (outputSetAt r)
  | 0x08 => .schedule (scheduleAt r)
  | 0x09 => .cancel (wordAt r 8)
  | 0x0A => .refresh (wordAt r 8)
  | 0x0B => .timeRead
  | 0x0C => .timeSet (quadAt r 8)
  | 0x0D => .linkOpen (linkOpenAt r)
  | 0x0E => .linkClose
  | 0x0F => .quiesce (wordAt r 8)
  | 0x10 => .openIntake
  | 0x11 => .statsRead (statsReadAt r)
  | 0x12 => .faults (faultsAt r)
  | 0x13 => .fence
  | _ => .unknown (byteAt r 0)

/-- The step in which a command, with its tag, is taken; `pause` is for the commands that make several offers (R8). -/
def takeUpTo (pause : Option Nat) (tag : Word) : Command → Instr
  | .unknown kind => .unknownCommand tag kind
  | .routeSet f => .routeSet tag f pause
  | .routeClear f => .routeClear tag f
  | .routeSuspend source => .routeSuspend tag source
  | .routeResume source => .routeResume tag source
  | .lineInConfig f => .lineInConfig tag f
  | .lineOutConfig f => .lineOutConfig tag f
  | .outputSet f => .outputSet tag f
  | .schedule f => .schedule tag f
  | .cancel eventTag => .cancel tag eventTag
  | .refresh lines => .refresh tag lines pause
  | .timeRead => .timeRead tag
  | .timeSet time => .timeSet tag time
  | .linkOpen f => .linkOpen tag f
  | .linkClose => .linkClose tag
  | .quiesce deadline => .quiesce tag deadline
  | .openIntake => .openIntake tag
  | .statsRead f => .statsRead tag f
  | .faults f => .faults tag f
  | .fence => .fence tag

/-- The step in which a command, with its tag, is taken and all of its offers are made. -/
def takeOf (tag : Word) (c : Command) : Instr := takeUpTo none tag c

/-- R147, 13.2: the step in which the command record of these 32 bytes is taken. -/
def decodeCommandRecord (r : List Byte) : Instr := takeOf (wordAt r 4) (commandAt r)

/-- 13.2: the parameter bytes of a command, from byte 8 of its record, as far as its kind names them. -/
def Command.params : Command → List Byte
  | .unknown _ => []
  | .routeSet f =>
      le 2 f.source.toNat ++ [f.state, f.forward] ++ le 4 f.outputs.toNat
        ++ [f.rings, f.kinds, f.late, f.refresh] ++ le 4 f.latency.toNat ++ le 4 f.width.toNat
  | .routeClear f => le 2 f.source.toNat ++ [f.purge]
  | .routeSuspend source => le 2 source.toNat
  | .routeResume source => le 2 source.toNat
  | .lineInConfig f =>
      [f.line, f.mode, f.announce, 0] ++ le 2 f.filter.toNat ++ le 2 f.source.toNat ++ le 4 f.spacing.toNat
  | .lineOutConfig f => [f.line, f.mode, f.drive, f.polarity, f.resting]
  | .outputSet f => [f.line, f.action, f.level, 0] ++ le 4 f.width.toNat
  | .schedule f =>
      le 2 f.source.toNat ++ [f.kind, 0] ++ le 4 f.param.toNat ++ le 8 f.stamp.toNat ++ le 4 f.eventTag.toNat
  | .cancel eventTag => le 4 eventTag.toNat
  | .refresh lines => le 4 lines.toNat
  | .timeRead => []
  | .timeSet time => le 8 time.toNat
  | .linkOpen f =>
      le 2 f.openTimeout.toNat ++ le 2 f.ackTimeout.toNat ++ [f.retryLimit, 0] ++ le 2 f.idleTimeout.toNat
        ++ le 2 f.alignInterval.toNat ++ le 2 f.maxDelay.toNat
  | .linkClose => []
  | .quiesce deadline => le 4 deadline.toNat
  | .openIntake => []
  | .statsRead f => le 8 f.address.toNat ++ le 4 f.length.toNat ++ [f.sections, f.clear]
  | .faults f => le 2 f.clear.toNat ++ le 2 f.mask.toNat ++ [f.maskWrite, f.query]
  | .fence => []

/-- 13.2: a command record: kind code, command tag, parameters, the bytes the kind does not name written 0. -/
def commandRecord (tag : Word) (c : Command) : List Byte :=
  let head := [Machine.Command.code c, 0, 0, 0] ++ le 4 tag.toNat ++ c.params
  head ++ zeros (32 - head.length)

/-! ### Frames (13.4, R100, R101, R198) -/

/-- 13.4: the EVENT fields of a frame. -/
def rxEventAt (r : List Byte) : RxEventFields :=
  { seq := byteAt r 1, source := byteAt r 2, kind := byteAt r 3, param := halfAt r 4, flags := byteAt r 6
    capture := quadAt r 7 }

/-- R101, R198: the step of an intact frame, by its kind code and the length that code gives. -/
def intactFrame (r : List Byte) : Instr :=
  match (byteAt r 0).toNat, r.length with
  | 1, 7 => if halfAt r 1 = 0 then .frameMalformed else .rxHello (halfAt r 1) (halfAt r 3)
  | 2, 5 => if halfAt r 1 = 0 then .frameMalformed else .rxClose (halfAt r 1)
  | 3, 5 => if halfAt r 1 = 0 then .frameMalformed else .rxIdle (halfAt r 1)
  | 4, 17 => .rxEvent (rxEventAt r)
  | 5, 4 => .rxAck (byteAt r 1)
  | 6, 12 => .rxProbe (byteAt r 1) (quadAt r 2)
  | 7, 28 => .rxEcho (byteAt r 1) (quadAt r 2) (quadAt r 10) (quadAt r 18) (.frame none)
  | _, _ => .frameMalformed

/-- R100, R198: the step of a frame that arrives: its last two bytes are its CRC-16, low byte first. Fewer than two bytes
hold no CRC and fail it (log entry 17). -/
def decodeFrame (r : List Byte) : Instr :=
  if 2 ≤ r.length ∧ (crc16 (r.take (r.length - 2))).toNat = fieldAt r (r.length - 2) 2 then intactFrame r
  else .crcError

/-- The step in which a frame sent by a peer is taken. -/
def Machine.Frame.arrival : Frame → Instr
  | .hello sender seen => .rxHello sender seen
  | .close sender => .rxClose sender
  | .idle sender => .rxIdle sender
  | .event seq source kind coalesced refresh capture =>
      .rxEvent { seq := seq, source := source, kind := BitVec.ofNat 8 kind.code, param := kind.param
                 flags := bitByte 0 coalesced ||| bitByte 1 refresh, capture := capture }
  | .ack next => .rxAck next
  | .probe number t1 => .rxProbe number t1
  | .echo number t1 t2 t3 => .rxEcho number t1 t2 t3 (.frame none)

end Sys2Proof
end

