-- ==== Sys2Proof/Machine/Capture.lean ====
section
/-! DEFINITION. The Capture Unit: the glitch filter, reporting, the spacing window, STATE events and the announce
(chapter 5), with RAW_CHANGE, FILTER_ACCEPT and SPACING_END. -/

namespace Sys2Proof.Machine

/-- R70: the mode selects a change to this level as an edge. -/
def InMode.selects : InMode → Level → Bool
  | .off, _ => false
  | .riseOnly, l => l.isHigh
  | .fallOnly, l => !l.isHigh
  | .both, _ => true

/-- R74: the event kind of a change to a level. -/
def edgeKind : Level → EventKind
  | .high => .rise
  | .low => .fall

/-- No flags (R74). -/
def Flags.none : Flags := ⟨false, false, false⟩

/-- R2: an event of input line `n`. -/
def lineEvent (n : Fin 16) (l : InputLine) (kind : EventKind) (capture : Nat) (flags : Flags) : Event :=
  { source := l.config.source, kind := kind, capture := capture, origin := .line n, flags := flags }

/-- R75: the context value of a raise that names a line. -/
def lineContext (n : Fin 16) : Word := BitVec.ofNat 32 n.val

/-- R75, R81: a FULL answer to an edge, catch-up or announce event: lost is incremented and INTAKE_FULL raised. -/
def loseToFull (n : Fin 16) (l : InputLine) (s : State) : State :=
  raiseFault .intakeFull (lineContext n)
    (setInput n { l with counters := { l.counters with lost := bump l.counters.lost } } s)

/-- R75, R81: a CLOSED answer to an edge, catch-up or announce event: refused_closed is incremented. -/
def loseToClosed (n : Fin 16) (l : InputLine) (s : State) : State :=
  setInput n { l with counters := { l.counters with refusedClosed := bump l.counters.refusedClosed } } s

/-- R74, R75, R77: line `n`, now `l`, offers an edge or catch-up event that states `level`; `window` is the spacing end
it holds once the event is accepted. -/
def offerEdge (n : Fin 16) (l : InputLine) (e : Event) (level : Level) (window : Option Nat) (s : State) : State :=
  match offerAnswer s with
  | .accepted =>
      setInput n { l with
        reported := level
        spacingEnd := window
        counters := { l.counters with captured := bump l.counters.captured } } (offerEvent e s)
  | .full => loseToFull n l s
  | .closed => loseToClosed n l s

/-- R74: the spacing end of an edge reported with this timestamp: absent with S = 0, and absent again at once when it is
already reached. -/
def windowAfter (l : InputLine) (stamp now : Nat) : Option Nat :=
  if l.config.spacing = 0 then none
  else if stamp + l.config.spacing.toNat ≤ now then none
  else some (stamp + l.config.spacing.toNat)

/-- R73, R74, R76: line `n`, standing at `l`, accepts its raw level with timestamp `stamp`. A selected change is
coalesced in an open window and reported otherwise; a change the mode does not select is then done. -/
def acceptChange (n : Fin 16) (l : InputLine) (stamp : Nat) (s : State) : State :=
  let l1 := { l with accepted := l.raw, candidate := none }
  if l.config.mode.selects l.raw then
    if l.spacingEnd.isSome then
      setInput n { l1 with
        suppressed := true
        counters := { l1.counters with coalesced := bump l1.counters.coalesced } } s
    else
      offerEdge n l1 (lineEvent n l (edgeKind l.raw) stamp Flags.none) l.raw (windowAfter l stamp s.localTime) s
  else setInput n l1 s

/-- R72: the line passes raw changes through the filter. -/
def filters (s : State) (l : InputLine) : Bool := s.part == .running && l.config.mode != .off

/-- R72, R73: the pin of line `n` is sampled at `level`, other than the raw level. -/
def rawChange (n : Fin 16) (level : Level) (s : State) : State :=
  let l := s.inputs[n]
  if l.raw = level then s
  else
    let l1 := { l with raw := level }
    if filters s l then
      match l.candidate with
      | some _ =>
          setInput n { l1 with
            candidate := none
            counters := { l1.counters with glitches := bump l1.counters.glitches } } s
      | none =>
          if l.config.filter = 0 then acceptChange n l1 s.localTime s
          else setInput n { l1 with candidate := some s.localTime } s
    else setInput n l1.resetCapture s

/-- R73: F ticks have passed since the candidate of line `n` opened. -/
def filterAccept (n : Fin 16) (s : State) : State :=
  let l := s.inputs[n]
  match l.candidate with
  | none => s
  | some start =>
      if start + l.config.filter.toNat ≤ s.localTime then acceptChange n l start s else s

/-- R77: the level a catch-up event of this line states, if one is made at the end of its window. -/
def catchUpLevel (l : InputLine) : Option Level :=
  if l.suppressed then
    match l.config.mode with
    | .both => if l.accepted = l.reported then none else some l.accepted
    | .riseOnly => some .high
    | .fallOnly => some .low
    | .off => none
  else none

/-- R77: local time has reached the spacing end of line `n`. -/
def spacingEnd (n : Fin 16) (s : State) : State :=
  let l := s.inputs[n]
  match l.spacingEnd with
  | none => s
  | some t =>
      if t ≤ s.localTime then
        let l1 := { l with spacingEnd := none, suppressed := false }
        match catchUpLevel l with
        | none => setInput n l1 s
        | some level =>
            offerEdge n l1 (lineEvent n l (edgeKind level) t { Flags.none with coalesced := true }) level none s
      else s

/-! ### STATE events (R79 to R81) -/

/-- R79: the STATE event of line `n` made now. -/
def stateEvent (n : Fin 16) (s : State) : Event :=
  let l := s.inputs[n]
  lineEvent n l (.state l.accepted) s.localTime { Flags.none with refresh := true }

/-- R79: line `n` offers a STATE event; when it is accepted the last reported level becomes the level it states. -/
def offerState (n : Fin 16) (s : State) : State :=
  let l := s.inputs[n]
  match offerAnswer s with
  | .accepted => setInput n { l with reported := l.accepted } (offerEvent (stateEvent n s) s)
  | .full => s
  | .closed => s

/-- R79, R81: line `n` takes part in the announce: its refusals are counted on the line. A line whose mode has become OFF
since the entry to UP makes no event. -/
def announceLine (n : Fin 16) (s : State) : State :=
  if s.inputs[n].config.mode = .off then s
  else match offerAnswer s with
    | .accepted => offerState n s
    | .full => loseToFull n s.inputs[n] s
    | .closed => loseToClosed n s.inputs[n] s

/-- The line numbers in ascending order (R8). -/
def lineNumbers : List (Fin 16) := List.finRange 16

/-- R81: the lines that announce: announce YES and mode not OFF. -/
def announcingLines (s : State) : List (Fin 16) :=
  lineNumbers.filter fun n => s.inputs[n].config.announce && s.inputs[n].config.mode != .off

/-- R8, R81: up to `k` more lines of the announce under way make their offers. -/
def announceNext : Nat → State → State
  | 0, s => s
  | k + 1, s =>
      match s.announcing with
      | [] => s
      | n :: rest => announceNext k (announceLine n { s with announcing := rest })

/-- R8, R81: the announce under way goes on, to its end or for the offers that `pause` names. -/
def announceOn (pause : Option Nat) (s : State) : State := announceNext (pause.getD s.announcing.length) s

/-- R81: the announce at an entry of the session to UP begins (behind one that is still under way, log entry 11). -/
def announce (pause : Option Nat) (s : State) : State :=
  announceOn pause { s with announcing := s.announcing ++ announcingLines s }

/-! ### The rows -/

/-- RAW_CHANGE (R72, R73). -/
def execRawChange (line : Fin 16) (level : Level) (s : State) : Host.Outcome State Fault Refusal :=
  .next (rawChange line level s)

/-- FILTER_ACCEPT (R73). -/
def execFilterAccept (line : Fin 16) (s : State) : Host.Outcome State Fault Refusal :=
  .next (filterAccept line s)

/-- SPACING_END (R77). -/
def execSpacingEnd (line : Fin 16) (s : State) : Host.Outcome State Fault Refusal :=
  .next (spacingEnd line s)

end Sys2Proof.Machine
end

