-- ==== Sys2Proof/Machine/LinkOps.lean ====
section
/-! DEFINITION. The operations of the Link Controller that several steps share: the session transitions and what each
does (chapter 7), the transmit queue and window, and the frames made (chapter 8). -/

namespace Sys2Proof.Machine

/-! ### Counters -/

/-- A counter of the link is changed by `f` of the counters. -/
def countLink (f : LinkCounters → LinkCounters) (s : State) : State :=
  onLink (fun l => { l with counters := f l.counters }) s

/-- R104: a frame is discarded for the session state or an unmatched session. -/
def countUnexpected (s : State) : State :=
  countLink (fun c => { c with rxUnexpected := bump c.rxUnexpected }) s

/-- R101: an intact frame is malformed. -/
def countMalformed (s : State) : State :=
  countLink (fun c => { c with rxMalformed := bump c.rxMalformed }) s

/-! ### Frames made -/

/-- R106: a HELLO is made, with the session numbers as they stand, and the HELLO timer starts again. -/
def Link.makeHello (l : Link) : Link :=
  { l with hellos := l.hellos ++ [(l.own, l.recorded)], helloTimer := some 0 }

/-- R130: a PROBE is made: it takes the next probe number, and an earlier probe is no longer outstanding. -/
def Link.makeProbe (l : Link) : Link :=
  { l with probes := l.probes ++ [l.nextProbe], nextProbe := l.nextProbe + 1, outstanding := none }

/-- R128: an ACK with the expected sequence is made; a waiting ACK takes the new value. -/
def Link.makeAck (l : Link) : Link := { l with ackWait := some l.expected }

/-! ### The transmit queue and window (R120, R121) -/

/-- R121: a frame as it enters the window with the next sequence number. -/
def windowFrameOf (seq : Byte) (e : TxEvent) : WindowFrame :=
  { event := e, seq := seq, retry := 0, isPending := true, sentBefore := false }

/-- R121: up to `room` waiting frames enter the window, oldest first. -/
def enterWindow : Nat → Link → Link
  | 0, l => l
  | room + 1, l =>
      match l.waiting with
      | [] => l
      | e :: rest =>
          enterWindow room { l with
            window := l.window ++ [windowFrameOf l.nextSeq e]
            waiting := rest
            nextSeq := l.nextSeq + 1 }

/-- R121: waiting frames fill the free places of the window. -/
def Link.fillWindow (l : Link) : Link := enterWindow (Config.windowCapacity - l.window.length) l

/-- R120: the number of frames in the transmit queue, window included. -/
def Link.queueDepth (l : Link) : Nat := l.window.length + l.waiting.length

/-- R23: the Link Controller's answer to an enqueue request. -/
inductive EnqueueAnswer where
  | queued
  | notUp
  | full
deriving DecidableEq, Repr

/-- R23: the answer, on the session state and transmit queue as they stand. -/
def Link.enqueueAnswer (l : Link) : EnqueueAnswer :=
  if l.session = .up then (if l.queueDepth < Config.transmitCapacity then .queued else .full) else .notUp

/-- R121, R124: a frame is appended to the queue, enters the window if there is room, and starts the ack timer when it
enters an empty window. -/
def Link.enqueue (e : TxEvent) (l : Link) : Link :=
  let l1 := { l with waiting := l.waiting ++ [e] }.fillWindow
  { l1 with ackTimer := if l.window.isEmpty && !l1.window.isEmpty then some 0 else l1.ackTimer }

/-! ### Session transitions -/

/-- R117: what every exit from ALIGNING or UP, and from CALLING, does to the link: waiting frames dropped, transmit queue
and window discarded and counted, receive context reset, probe abandoned, alignment STALE, timers stopped, attempt
count 0. From CALLING the queue, window and receive context are empty already (R105). -/
def Link.exit (l : Link) : Link :=
  { l with
    closeWait := none, echoes := [], ackWait := none, probes := [], hellos := [], idles := []
    counters := { l.counters with txDiscarded := bumpBy l.queueDepth l.counters.txDiscarded }
    window := [], waiting := [], ackTimer := none
    expected := 0
    outstanding := none, fresh := false
    openTimer := none, helloTimer := none, keepTimer := none, silenceTimer := none
    attemptTimer := none, attempts := 0, probeTimer := none, staleTimer := none }

/-- R117: an exit is a move out of CALLING, ALIGNING or UP. -/
def Session.inCall : Session → Bool
  | .closed => false
  | .calling => true
  | .aligning => true
  | .up => true
  | .failed => false

/-- R117: the link at a move to FAILED or CLOSED, before the new state is set. -/
def Link.leave (l : Link) : Link := if l.session.inCall then l.exit else l

/-- R118: the LINK notice of a transition. -/
def linkNotice (s : State) : HostRecord :=
  .link s.link.session s.link.reason s.link.own s.link.recorded s.localTime

/-- R118: the second result word of a LINK_OPEN completion: own session number low, recorded peer session high. -/
def sessionPair (l : Link) : Word := BitVec.ofNat 32 (l.own.toNat + 65536 * l.recorded.toNat)

/-- R118: the reason code as a 32-bit word. -/
def Reason.word (r : Reason) : Word := BitVec.ofNat 32 r.code

/-- R171: an in-flight LINK_OPEN completes at the transition that ends it. -/
def finishLinkOpen (status : Status) (s : State) : State :=
  finishDeferred .linkOpen status s.link.reason.word (sessionPair s.link) 0 s

/-- R118: the status of a LINK_OPEN ended by a failure. -/
def Reason.failStatus : Reason → Status
  | .timeout => .timeout
  | _ => .alignFailed

/-- R117, R118: the session enters FAILED: LINK_LOST is raised with the reason code, a LINK notice is posted, and an
in-flight LINK_OPEN completes. -/
def enterFailed (r : Reason) (s : State) : State :=
  let s1 := onLink (fun l => { l.leave with session := .failed, reason := r }) s
  let s2 := raiseFault .linkLost r.word s1
  finishLinkOpen r.failStatus (postLinkNotice (linkNotice s2) s2)

/-- R114 to R118: the session enters CLOSED with a reason; a CLOSE carrying the own session number is made after the
discards when this side ends it; a LINK notice is posted, and an in-flight LINK_OPEN completes ABORTED. -/
def enterClosed (r : Reason) (sendClose : Bool) (s : State) : State :=
  let s1 := onLink (fun l =>
    let l1 := { l.leave with session := .closed, reason := r }
    if sendClose then { l1 with closeWait := some l1.own } else l1) s
  finishLinkOpen .aborted (postLinkNotice (linkNotice s1) s1)

/-- R116: at entry to HALTED the session enters CLOSED and a CLOSE is made, unless it was CLOSED; no notice, no
completion, and the last reason is kept. -/
def closeAtHalt (s : State) : State :=
  if s.link.session = .closed then s
  else onLink (fun l => { l.leave with session := .closed, closeWait := some l.own }) s

/-- R108: entry to ALIGNING: the open timer stops, the silence timer starts, the first probe attempt begins. -/
def Link.enterAligning (l : Link) : Link :=
  ({ l with session := .aligning, openTimer := none, silenceTimer := some 0,
            attempts := 1, attemptTimer := some 0 } : Link).makeProbe

/-- R110: the link at entry to UP. The offset, last delay and condition are those the accepted ECHO gave. -/
def Link.enterUp (l : Link) : Link :=
  { l with
    session := .up, reason := .opened
    helloTimer := none, hellos := []
    attempts := 0, attemptTimer := none
    probeTimer := some 0, staleTimer := some 0
    expected := 0, nextSeq := 0 }

/-- R110: entry to UP: the LINK_OPEN completes OK, an UP notice is posted, and the Capture Unit makes the announce, of
which `pause` offers, or all, are made in this step. -/
def enterUp (pause : Option Nat) (s : State) : State :=
  let s1 := onLink Link.enterUp s
  announce pause (finishLinkOpen .ok (postLinkNotice (linkNotice s1) s1))

end Sys2Proof.Machine
end

