-- ==== Sys2Proof/Machine/LinkReceive.lean ====
section
/-! DEFINITION. Frames that arrive on the span link (7.1, 7.3, 7.6, 8.2 to 8.4): the rows CRC_ERROR, FRAME_MALFORMED and
RX_HELLO to RX_ECHO. -/

namespace Sys2Proof.Machine

/-! ### Every intact frame (R100, R104) -/

/-- R104: an intact frame restarts the silence timer in ALIGNING and UP. -/
def Link.heard (l : Link) : Link :=
  match l.session with
  | .aligning => { l with silenceTimer := some 0 }
  | .up => { l with silenceTimer := some 0 }
  | .closed => l
  | .calling => l
  | .failed => l

/-- R100, R104: an intact frame has arrived: it is counted and restarts the silence timer. -/
def arrived (s : State) : State :=
  onLink Link.heard (countLink (fun c => { c with framesReceived := bump c.framesReceived }) s)

/-- A frame that arrives intact is taken by `f`; while RESET_N is asserted the part is in reset and takes none (log
entry 6). A transition may complete a FENCE that waited for the LINK_OPEN (R179). -/
def receive (f : State → State) (s : State) : State :=
  if s.resetHeld then s else settle (f (arrived s))

/-- R100: a frame that fails its CRC. -/
def crcError (s : State) : State :=
  if s.resetHeld then s else countLink (fun c => { c with crcErrors := bump c.crcErrors }) s

/-! ### Session frames (R104, R106, R108, R113, R114) -/

/-- R106, R108: a HELLO taken in CALLING records the peer session, and enters ALIGNING when it has seen this one. -/
def Link.helloInCall (sender seen : Half) (l : Link) : Link :=
  if seen = l.own then { l with recorded := sender }.enterAligning else { l with recorded := sender }

/-- R113: a HELLO matches the session pair. -/
def Link.pairMatches (sender seen : Half) (l : Link) : Bool := sender == l.recorded && seen == l.own

/-- R104: a HELLO with a sender session other than 0. -/
def takeHello (sender seen : Half) (s : State) : State :=
  match s.link.session with
  | .closed => countLink (fun c => { c with hellosUnanswered := bump c.hellosUnanswered }) s
  | .failed => countLink (fun c => { c with hellosUnanswered := bump c.hellosUnanswered }) s
  | .calling => onLink (Link.helloInCall sender seen) s
  | .aligning => if s.link.pairMatches sender seen then s else enterFailed .peerRestart s
  | .up => if s.link.pairMatches sender seen then s else enterFailed .peerRestart s

/-- R104, R114: a CLOSE with a sender session other than 0. -/
def takeClose (sender : Half) (s : State) : State :=
  if s.link.session.inCall && sender == s.link.recorded && s.link.recorded != 0 then enterClosed .peerClose false s
  else countUnexpected s

/-! ### EVENT frames (R126 to R128, R134) -/

/-- R126, R198: the event kind of a well-formed EVENT frame; `none` when a field is out of range. -/
def rxKind (f : RxEventFields) : Option EventKind :=
  if f.flags.toNat < 4 then eventKindOf f.kind f.param.toNat else none

/-- R134: the sender's capture time in local ticks; a result below 0 is 0. -/
def localCapture (capture : Quad) (offset : Int) : Nat := ((capture.toNat : Int) - offset).toNat

/-- R127: the event of a received frame. -/
def rxEventOf (f : RxEventFields) (kind : EventKind) (l : Link) : Event :=
  { source := f.source, kind := kind, capture := localCapture f.capture l.offset, origin := .link
    flags := { coalesced := f.flags.getLsbD 0, refresh := f.flags.getLsbD 1, unaligned := !l.fresh } }

/-- R127: the expected sequence advances and an ACK with the new one is made. -/
def Link.pass (l : Link) : Link := { l with expected := l.expected + 1 }.makeAck

/-- R127: the frame of the expected sequence is offered to the intake. -/
def takeExpected (f : RxEventFields) (kind : EventKind) (s : State) : State :=
  match offerAnswer s with
  | .accepted =>
      offerEvent (rxEventOf f kind s.link)
        (countLink (fun c => { c with eventsReceived := bump c.eventsReceived }) (onLink Link.pass s))
  | .closed => countLink (fun c => { c with rxClosed := bump c.rxClosed }) (onLink Link.pass s)
  | .full => countLink (fun c => { c with rxRefused := bump c.rxRefused }) s

/-- R127, R128: a well-formed EVENT frame taken in UP, by its distance behind the expected sequence. -/
def takeSequence (f : RxEventFields) (kind : EventKind) (s : State) : State :=
  let d := (s.link.expected - f.seq).toNat
  if d = 0 then takeExpected f kind s
  else if d ≤ 128 then
    countLink (fun c => { c with duplicates := bump c.duplicates }) (onLink Link.makeAck s)
  else countLink (fun c => { c with outOfOrder := bump c.outOfOrder }) s

/-- R104, R126: an EVENT frame. Which counter takes a malformed one outside UP is log entry 15. -/
def takeEvent (f : RxEventFields) (s : State) : State :=
  match rxKind f with
  | none =>
      if s.link.session = .up || Config.malformedEventCountsOutsideUp then countMalformed s else countUnexpected s
  | some kind => if s.link.session = .up then takeSequence f kind s else countUnexpected s

/-! ### ACK (R123, R124) -/

/-- R123: the sequence of the oldest window frame, or the next sequence number when the window is empty. -/
def Link.oldestSeq (l : Link) : Byte :=
  match l.window with
  | [] => l.nextSeq
  | w :: _ => w.seq

/-- R123, R124: the `d` oldest window frames leave, waiting frames enter, and the ack timer restarts or stops. -/
def Link.acknowledge (d : Nat) (l : Link) : Link :=
  let l1 := { l with window := l.window.drop d }.fillWindow
  { l1 with ackTimer := if l1.window.isEmpty then none else some 0 }

/-- R104, R123: an ACK. -/
def takeAck (next : Byte) (s : State) : State :=
  if s.link.session = .up then
    let d := (next - s.link.oldestSeq).toNat
    if d = 0 then s
    else if d ≤ s.link.window.length then onLink (Link.acknowledge d) s
    else countLink (fun c => { c with acksIgnored := bump c.acksIgnored }) s
  else countUnexpected s

/-! ### PROBE and ECHO (R131, R132) -/

/-- R104: the session takes PROBE and ECHO frames. -/
def Session.probes : Session → Bool
  | .aligning => true
  | .up => true
  | .closed => false
  | .calling => false
  | .failed => false

/-- R104, R131: a PROBE; its ECHO is made with t2 stamped now. -/
def takeProbe (number : Byte) (t1 : Quad) (s : State) : State :=
  if s.link.session.probes then
    onLink (fun l => { l with echoes := l.echoes ++ [{ number := number, t1 := t1, t2 := s.localTime }] }) s
  else countUnexpected s

/-- R132: the path delay of four times; the division truncates toward zero. -/
def echoDelay (t1 t2 t3 t4 : Int) : Int := ((t4 - t1) - (t3 - t2)).tdiv 2

/-- R132: the offset of four times; the division truncates toward zero. -/
def echoOffset (t1 t2 t3 t4 : Int) : Int := ((t2 - t1) + (t3 - t4)).tdiv 2

/-- R132: the t1 of the outstanding probe that an ECHO answers. -/
def Link.answered (number : Byte) (t1 : Quad) (l : Link) : Option Nat :=
  match l.outstanding with
  | none => none
  | some p => if p.1 = number ∧ BitVec.ofNat 64 p.2 = t1 then some p.2 else none

/-- R132: an accepted ECHO. -/
def Link.accept (offset delay : Int) (l : Link) : Link :=
  { l with
    outstanding := none
    offset := offset
    lastDelay := delay
    fresh := true
    counters := { l.counters with probesAccepted := bump l.counters.probesAccepted }
    staleTimer := some 0 }

/-- R132: a rejected ECHO. -/
def Link.reject (l : Link) : Link :=
  { l with
    outstanding := none
    counters := { l.counters with probesRejected := bump l.counters.probesRejected } }

/-- R132: an ECHO that answers the outstanding probe, whose t1 is the given one. -/
def judgeEcho (t1 : Nat) (t2 t3 : Quad) (pause : Option Nat) (s : State) : State :=
  let delay := echoDelay t1 t2.toNat t3.toNat s.localTime
  let offset := echoOffset t1 t2.toNat t3.toNat s.localTime
  if 0 ≤ delay ∧ delay ≤ (s.link.params.maxDelay : Int) then
    let s1 := onLink (Link.accept offset delay) s
    if s.link.session = .aligning then enterUp pause s1 else s1
  else onLink Link.reject s

/-- R104, R132: an ECHO. -/
def takeEcho (number : Byte) (t1 t2 t3 : Quad) (pause : Option Nat) (s : State) : State :=
  if s.link.session.probes then
    match s.link.answered number t1 with
    | some sent => judgeEcho sent t2 t3 pause s
    | none => countLink (fun c => { c with echoesIgnored := bump c.echoesIgnored }) s
  else countUnexpected s

/-! ### The rows -/

/-- CRC_ERROR (R100). -/
def execCrcError (s : State) : Host.Outcome State Fault Refusal := .next (crcError s)

/-- FRAME_MALFORMED (R101). -/
def execFrameMalformed (s : State) : Host.Outcome State Fault Refusal := .next (receive countMalformed s)

/-- RX_HELLO (R106, R113); with a sender session of 0 the frame is malformed (R101). -/
def execRxHello (sender seen : Half) (s : State) : Host.Outcome State Fault Refusal :=
  .next (receive (fun s => if sender = 0 then countMalformed s else takeHello sender seen s) s)

/-- RX_CLOSE (R114); with a sender session of 0 the frame is malformed (R101). -/
def execRxClose (sender : Half) (s : State) : Host.Outcome State Fault Refusal :=
  .next (receive (fun s => if sender = 0 then countMalformed s else takeClose sender s) s)

/-- RX_IDLE (R104); with a sender session of 0 the frame is malformed (R101). -/
def execRxIdle (sender : Half) (s : State) : Host.Outcome State Fault Refusal :=
  .next (receive (fun s => if sender = 0 then countMalformed s else s) s)

/-- RX_EVENT (R127). -/
def execRxEvent (f : RxEventFields) (s : State) : Host.Outcome State Fault Refusal :=
  .next (receive (takeEvent f) s)

/-- RX_ACK (R123). -/
def execRxAck (next : Byte) (s : State) : Host.Outcome State Fault Refusal := .next (receive (takeAck next) s)

/-- RX_PROBE (R131). -/
def execRxProbe (number : Byte) (t1 : Quad) (s : State) : Host.Outcome State Fault Refusal :=
  .next (receive (takeProbe number t1) s)

/-- RX_ECHO (R132, R81): the frame, or further offers of the announce an earlier one began, which are made in RUNNING
alone (R79). -/
def rxEcho (number : Byte) (t1 t2 t3 : Quad) (part : EchoPart) (s : State) : State :=
  match part with
  | .frame pause => receive (takeEcho number t1 t2 t3 pause) s
  | .announce pause => if s.part = .running then announceOn pause s else s

/-- RX_ECHO (R132). -/
def execRxEcho (number : Byte) (t1 t2 t3 : Quad) (s : State) (part : EchoPart := .frame none) :
    Host.Outcome State Fault Refusal :=
  .next (rxEcho number t1 t2 t3 part s)

end Sys2Proof.Machine
end

