-- ==== Sys2Proof/Machine/Control.lean ====
section
/-! DEFINITION. The part states (9.1): entry to STOPPING, entry to HALTED and device reset, which several steps share,
and the rows START to STOPPING_END but for STOP (Machine/StopRow.lean, with BUS_MASTER_ERROR, since either may fall inside
the execution of a command). -/

namespace Sys2Proof.Machine

/-! ### Entry to STOPPING (R12, R53, R83, R96, R116, R140) -/

/-- R174, R177, R179, R171: status ABORTED, the result words of a deferred command at the entry to STOPPING. -/
def abortWords (s : State) (j : Job) : Word × Word × Word :=
  match j with
  | .linkOpen => (Reason.stop.word, sessionPair s.link, 0)
  | .quiesce _ elapsed =>
      (BitVec.ofNat 32 elapsed, BitVec.ofNat 32 (intakeLoad s), BitVec.ofNat 32 s.hold.length)
  | .statsRead j => (BitVec.ofNat 32 j.written, 0, 0)
  | .fence recorded _ => (BitVec.ofNat 32 recorded, 0, 0)

/-- R140: one deferred command completes ABORTED. -/
def abortOne (s : State) (d : Deferred) : State :=
  let w := abortWords s d.job
  handCompletion d.job.kind.commandCode d.tag .aborted w.1 w.2.1 w.2.2 s

/-- R140: every deferred command in flight completes ABORTED, in the order taken. -/
def abortDeferred (s : State) : State :=
  { s.deferred.foldl abortOne s with deferred := [] }

/-- R116: the session closes with reason STOP, unless it is CLOSED. -/
def closeAtStop (s : State) : State :=
  if s.link.session = .closed then s else enterClosed .stop true s

/-- R12, R53, R54: the intake, an event under decision and the Hold Queue are discarded and counted. An announce under way
makes no further event (R79). -/
def discardEvents (s : State) : State :=
  { s with
    discardedAtStop := bumpBy s.hold.length (bumpBy (intakeLoad s) s.discardedAtStop)
    intake := [], intakeOpen := false, announcing := [], deciding := none, handover := none, hold := [] }

/-- R7, R12, R83: an offer that reaches the intake after the entry to STOPPING or HALTED has closed it: the producer's own
step, answered CLOSED. -/
def offerLate : LateOffer → State → State
  | .edge line, s => filterAccept line s
  | .unfiltered line level, s => rawChange line level s
  | .catchUp line, s => spacingEnd line s
  | .announce, s => announceNext 1 s
  | .frame f, s => receive (takeEvent f) s

/-- R7, R12, R83: the intake is closed, and the late offers reach it. -/
def offersLate (late : List LateOffer) (s : State) : State :=
  late.foldl (fun t x => offerLate x t) { s with intakeOpen := false }

/-- R140: the part enters STOPPING. A read of a command record that is outstanding is dropped (R147), and the tag memory
is emptied (R55). Offers under way then find the intake CLOSED (R83). -/
def enterStopping (late : List LateOffer) (s : State) : State :=
  let s1 := closeAtStop (abortDeferred (offersLate late s))
  endPulses (resetCapture (discardEvents { s1 with part := .stopping, cmdRead := false, tags := [] }))

/-! ### Entry to HALTED (R54, R83, R97, R116, R141, R182) -/

/-- R141: the pending writes of a ring are dropped; its indices stay as they stand (log entry 21). -/
def OutRing.drop (r : OutRing) : OutRing := { r with writes := [] }

/-- R141: records taken and not yet written are dropped. -/
def Geometry.drop (g : Geometry) : Geometry :=
  { g with compl := g.compl.drop, event := mapBank OutRing.drop g.event }

/-- R141: the part enters HALTED: no further access to host memory, so that index writes that have not completed stay
unwritten, the link closes, the intake and Hold Queue are
discarded and counted, the delivery in progress is abandoned (R54), capture state is reset, pulses end, HOST_BUS is
raised (R182) and the STATE cause is set. The deferred set, a command under execution and the tag memory are kept (R141,
R160, R55). DESIGN CHOICE: a STATS_READ buffer write issued before the entry may still land, since R141 drops records and
forbids further writes, and names no buffer write that is already issued (log entry 21). -/
def enterHalted (late : List LateOffer) (s : State) : State :=
  let s1 := discardEvents (closeAtHalt (offersLate late s))
  let s2 := { s1 with
    part := .halted
    cmdRead := false
    geom := s1.geom.map Geometry.drop
    indexWrites := []
    issued := s1.issued ++ s1.bufWrites
    bufWrites := []
    delivery := none
    faultNotices := []
    linkNotices := [] }
  setCause .state (takeRaise ⟨.hostBus, 0⟩ (endPulses (resetCapture s2)))

/-! ### Device reset (R142) -/

/-- R142: every block, register and counter at its reset value. The input pins stay where they are: each raw level is
the pin as sampled (R71). What the part has written into host memory stays there, and a write that is on the bus may
still complete there (log entry 36). RESET_N stays as it is, and the model's own fields stay. -/
def deviceReset (s : State) : State :=
  { State.reset with
    resetHeld := s.resetHeld
    intRises := s.intRises
    intMessages := s.intMessages
    hostMem := s.hostMem
    issued := s.issued ++ outstandingWrites s
    choices := s.choices
    inputs := Vector.ofFn fun n => InputLine.reset n s.inputs[n].raw
    pending := s.pending }

/-! ### Starting (R138, R139) -/

/-- The setup address, SETUP_HI above SETUP_LO (13.5). -/
def setupAddress (s : State) : Quad := BitVec.ofNat 64 (s.setupLo.toNat + 2 ^ 32 * s.setupHi.toNat)

/-- R138: a start step fails: the part returns to IDLE with the step's code, holds no ring geometry, and the STATE cause
is set. -/
def failStart (e : StartError) (s : State) : State :=
  setCause .state { s with part := .idle, startError := e, starting := none, geom := none }

/-- R138: entry to STARTING. The start error becomes NONE, the intake and Hold Queue are empty (R5, R37), no geometry is
held (log entry 22), and the setup address is tested; then the setup block read is issued. -/
def startPart (s : State) : State :=
  if s.resetHeld then s
  else if s.part = .idle then
    let a := setupAddress s
    let s1 := { s with
      part := .starting, startError := .noError, starting := some (.readingSetup a), geom := none
      intake := [], intakeOpen := false, hold := [] }
    if a.toNat % 4096 = 0 then s1 else failStart .badAlign s1
  else s

/-- R138, R139: the setup block read returns with `b`. -/
def setupReadDone (b : SetupBlock) (s : State) : State :=
  match s.part, s.starting with
  | .starting, some (.readingSetup _) =>
      if setupError b = .noError then { s with starting := some (.writingStatus (geometryOf b)) }
      else failStart (setupError b) s
  | _, _ => s

/-- R138, R5, R71: the status block write of step 6 has completed: 64 bytes written 0, the geometry takes effect, the
part enters RUNNING with an empty OPEN intake and capture state reset, and the STATE cause is set. -/
def statusBlockInitDone (s : State) : State :=
  match s.part, s.starting with
  | .starting, some (.writingStatus g) =>
      setCause .state (resetCapture (writeHost g.status.toNat (zeros 64)
        { s with part := .running, starting := none, geom := some g
                 intake := [], intakeOpen := true, hold := [] }))
  | _, _ => s

/-- R140: every record the Ring Engine has taken is written, and its producer index written to the status block. -/
def noRingWrites (s : State) : Bool :=
  (s.indexWrites.all fun w => w.field == .command)
    && match s.geom with
      | none => true
      | some g => g.compl.writes.isEmpty && ((List.finRange 4).all fun r => g.event[r].writes.isEmpty)

/-- R140: STOPPING may end: no command under execution or deferred, no delivery in progress, every STATS_READ buffer
write completed, and every record and its index written; notices handed over count as taken (log entry 8). -/
def stoppingDone (s : State) : Bool :=
  s.part == .stopping && s.executing.isNone && s.deferred.isEmpty && s.delivery.isNone && s.bufWrites.isEmpty
    && noRingWrites s && s.faultNotices.isEmpty && s.linkNotices.isEmpty

/-- R140, R136: the part enters IDLE from STOPPING and the STATE cause is set; writes of the command consumer index that
have not completed by then complete here, since IDLE writes nothing (log entry 40). -/
def stoppingEnd (s : State) : State :=
  if stoppingDone s then setCause .state { commandIndexWritten s with part := .idle } else s

/-! ### The rows -/

/-- START (R137, R138): ignored in every part state but IDLE. -/
def execStart (s : State) : Host.Outcome State Fault Refusal := .next (startPart s)

/-- RESET (R137, R142). -/
def execReset (s : State) : Host.Outcome State Fault Refusal := .next (deviceReset s)

/-- RESET_N_ASSERT (R60, R142): device reset, and local time is held at 0. -/
def execResetNAssert (s : State) : Host.Outcome State Fault Refusal :=
  .next { deviceReset s with resetHeld := true }

/-- RESET_N_RELEASE (R60): local time starts to count. -/
def execResetNRelease (s : State) : Host.Outcome State Fault Refusal := .next { s with resetHeld := false }

/-- FUNCTION_RESET (R142). -/
def execFunctionReset (s : State) : Host.Outcome State Fault Refusal := .next (deviceReset s)

/-- SETUP_READ_DONE (R138, R139). -/
def execSetupReadDone (block : SetupBlock) (s : State) : Host.Outcome State Fault Refusal :=
  .next (setupReadDone block s)

/-- STATUS_BLOCK_INIT_DONE (R138). -/
def execStatusBlockInitDone (s : State) : Host.Outcome State Fault Refusal := .next (statusBlockInitDone s)

/-- STOPPING_END (R140). -/
def execStoppingEnd (s : State) : Host.Outcome State Fault Refusal := .next (stoppingEnd s)

end Sys2Proof.Machine
end

