-- ==== Sys2Proof/Machine/Commands.lean ====
section
/-! DEFINITION. How a host command runs (10.1): it is taken when its record's read returns, executed, completed, and the
next read is issued. The entry to STOPPING or HALTED may fall inside the execution (R140, R160), which the rows STOP and
BUS_MASTER_ERROR use, and other steps may fall between the offers of a REFRESH (R8). -/

namespace Sys2Proof.Machine

/-- What an execution ends with: an immediate completion with its status and result words, a deferred command that has
joined the set (R158) and completes through it, or a set of offers that is not at its end (R8). -/
inductive Answer where
  | done (status : Status) (w1 w2 w3 : Word)
  | joined
  | underWay (w : OfferSet)
deriving DecidableEq, Repr

/-- What falls inside an execution: nothing; a STOP, after this many of its requests and with these late offers behind it
(R140, R160); or other steps, after this many of its requests (R8). -/
inductive Falls where
  | nothing
  | stop (requests : Nat) (late : List LateOffer)
  | others (requests : Nat)
deriving DecidableEq, Repr

/-- An execution: what falls inside it, the state at the take, and the state and answer at its end, or at the point where
other steps fall. -/
abbrev Execution := Falls → State → State × Answer

/-- R140, R160: an execution that makes one request to the blocks that own its effect. What falls inside it falls before
the request or after it. -/
def whole (f : State → State × Answer) : Execution := fun falls s =>
  match falls with
  | .nothing => f s
  | .stop 0 late => f (enterStopping late s)
  | .stop (_ + 1) late => (enterStopping late (f s).1, (f s).2)
  | .others 0 => (s, (f s).2)
  | .others (_ + 1) => f s

/-- R156: a completion of a command that changes nothing: INVALID or UNKNOWN with result words 0. -/
def rejected (status : Status) (s : State) : State × Answer := (s, .done status 0 0 0)

/-- R140: a deferred command that an execution overtaken by a STOP started and left in flight completes ABORTED when its
execution ends; a LINK_OPEN so aborted moves its session to CLOSED with reason STOP. -/
def abortLeftovers (s : State) : State :=
  if s.part = .stopping then closeAtStop (abortDeferred s) else s

/-- R157, R158: the completion of an execution. -/
def answerCommand (kind : Byte) (tag : Word) (a : Answer) (s : State) : State :=
  match a with
  | .done status w1 w2 w3 => finishImmediate kind tag status w1 w2 w3 s
  | .joined => settle s
  | .underWay w => { s with executing := some w }

/-- R147, R155 to R160: a command record whose read is outstanding is taken and executed, and the next read is issued.
With no read outstanding, or the part not RUNNING, no command is taken. -/
def runCommand (falls : Falls) (kind : Byte) (tag : Word) (x : Execution) (s : State) : State :=
  if s.part = .running ∧ s.cmdRead = true then
    let r := x falls (takeCommand s)
    commandFetch (abortLeftovers (answerCommand kind tag r.2 r.1))
  else s

/-! ### Sets of offers (R8, R80, R161, R167) -/

/-- R80: the line whose turn it is offers its STATE event, and the lines after it wait. -/
def OfferSet.offer (n : Fin 16) (rest : List (Fin 16)) (w : OfferSet) (s : State) : State × OfferSet :=
  match offerAnswer s with
  | .accepted => (offerState n s, { w with lines := rest, made := w.made + 1 })
  | .full => (s, { w with lines := rest, refused := w.refused + 1 })
  | .closed => (s, { w with lines := rest, refused := w.refused + 1, closed := true })

/-- R8, R80: up to `k` more lines of the set make their offers, in ascending line number. -/
def OfferSet.advance : Nat → OfferSet → State → State × OfferSet
  | 0, w, s => (s, w)
  | k + 1, w, s =>
      match w.lines with
      | [] => (s, w)
      | n :: rest => OfferSet.advance k (w.offer n rest s).2 (w.offer n rest s).1

/-- R80: the part has entered STOPPING: the lines whose turn has not come make no event and count as refused. -/
def OfferSet.abandon (w : OfferSet) : OfferSet :=
  { w with lines := [], refused := w.refused + w.lines.length, closed := w.closed || !w.lines.isEmpty }

/-- R161, R167: the completion of a set of offers at its end: for REFRESH the status says whether refusals met CLOSED or
a STOP, for ROUTE_SET word 3. -/
def OfferSet.answer (w : OfferSet) : Answer :=
  match w.command with
  | .refresh _ => .done (if w.closed then .closed else .ok) (BitVec.ofNat 32 w.made) (BitVec.ofNat 32 w.refused) 0
  | _ => .done .ok (BitVec.ofNat 32 w.made) (BitVec.ofNat 32 w.refused) (if w.closed then 1 else 0)

/-- R8, R80, R161: the offers of a set, with what falls among them. -/
def makeOffers (w : OfferSet) : Execution := fun falls s =>
  match falls with
  | .nothing =>
      let r := w.advance w.lines.length s
      (r.1, r.2.answer)
  | .stop requests late =>
      let r := w.advance requests s
      (enterStopping late r.1, r.2.abandon.answer)
  | .others requests =>
      let r := w.advance requests s
      (r.1, .underWay r.2)

/-- R8: where a command that makes several offers is taken by a step that makes them all, or only some. -/
def fallsOf (pause : Option Nat) : Falls :=
  match pause with
  | none => .nothing
  | some n => .others n

/-- R8, R80, R160: the set of offers under execution goes on in RUNNING, to its end or for the offers that `pause` names;
in STOPPING it ends with the lines left unmade. At its end the command completes, and the next read is issued. -/
def goOnOffering (pause : Option Nat) (w : OfferSet) (s : State) : State :=
  let r := match s.part with
    | .running => makeOffers w (fallsOf pause) { s with executing := none }
    | .stopping => ({ s with executing := none }, w.abandon.answer)
    | .idle | .starting | .halted => (s, .underWay w)
  commandFetch (answerCommand (Command.code w.command) w.tag r.2 r.1)

/-- R147, R8: a command that may make several offers is taken, or, when it is the one under execution, goes on. -/
def runOffering (pause : Option Nat) (tag : Word) (c : Command) (x : Execution) (s : State) : State :=
  match s.executing with
  | none => runCommand (fallsOf pause) (Command.code c) tag x s
  | some w => if w.tag = tag ∧ w.command = c then goOnOffering pause w s else s

end Sys2Proof.Machine
end

