-- ==== Sys2Proof/Machine/LineCommands.lean ====
section
/-! DEFINITION. The output lines (chapter 6) and the line commands LINE_IN_CONFIG, LINE_OUT_CONFIG, OUTPUT_SET and
REFRESH (10.4), with the rows APPLICATION_REQUEST's line operation and PULSE_END. -/

namespace Sys2Proof.Machine

/-! ### An output line (R86, R88 to R91) -/

/-- R86: the level the line shows: the opposite of its resting level while a pulse is active. -/
def OutputLine.shown (o : OutputLine) : Level := if o.pulse.isSome then o.resting.flip else o.resting

/-- R86: the pin value is the shown level under ACTIVE_HIGH and its inverse under ACTIVE_LOW. -/
def OutputLine.pinValue (o : OutputLine) : Level :=
  match o.polarity with
  | .activeHigh => o.shown
  | .activeLow => o.shown.flip

/-- R86: what the part does to the pin. -/
def OutputLine.pin (o : OutputLine) : PinDrive :=
  match o.mode, o.drive, o.pinValue with
  | .disabled, _, _ => .released
  | .routed, _, .low => .drivenLow
  | .routed, .pushPull, .high => .drivenHigh
  | .routed, .openDrain, .high => .released
  | .host, _, .low => .drivenLow
  | .host, .pushPull, .high => .drivenHigh
  | .host, .openDrain, .high => .released

/-- R99: the pin as sampled: the pin value where the part drives it, else the level the board gives. -/
def OutputLine.sampled (o : OutputLine) (board : Level) : Level :=
  match o.pin with
  | .drivenLow => .low
  | .drivenHigh => .high
  | .released => board

/-- R89: a level event. -/
def OutputLine.applyLevel (level : Level) (o : OutputLine) : OutputLine × LineOutcome :=
  if o.pulse.isSome then
    ({ o with
       pulse := none
       resting := level
       counters := { o.counters with
         truncated := bump o.counters.truncated
         applied := bump o.counters.applied } }, .truncated)
  else if level = o.resting then
    ({ o with counters := { o.counters with redundant := bump o.counters.redundant } }, .redundant)
  else
    ({ o with
       resting := level
       counters := { o.counters with applied := bump o.counters.applied } }, .applied)

/-- R90: a pulse request whose pulse ends at `finish`; a pulse whose end is already reached ends in the same take. -/
def OutputLine.applyPulse (finish : Int) (now : Nat) (o : OutputLine) : OutputLine × LineOutcome :=
  let pulse := if finish ≤ (now : Int) then none else some finish
  if o.pulse.isSome then
    ({ o with
       pulse := pulse
       counters := { o.counters with retriggered := bump o.counters.retriggered } }, .retriggered)
  else
    ({ o with
       pulse := pulse
       counters := { o.counters with applied := bump o.counters.applied } }, .applied)

/-- R88 to R90: a request of this kind acts on the line; `start` is the point a pulse is measured from. `none`: the kind
is MARK, which has no effect on an output line. -/
def OutputLine.act (kind : EventKind) (start : Int) (now : Nat) (o : OutputLine) :
    Option (OutputLine × LineOutcome) :=
  match kind with
  | .rise => some (o.applyLevel .high)
  | .fall => some (o.applyLevel .low)
  | .state level => some (o.applyLevel level)
  | .pulse width => some (o.applyPulse (start + (width.toNat : Int)) now)
  | .mark _ => none

/-- R88: the Output Unit takes an application request for the line. -/
def OutputLine.request (kind : EventKind) (start : Int) (now : Nat) (running : Bool) (o : OutputLine) : OutputLine :=
  match o.act kind start now with
  | none => o
  | some r =>
      if running && o.mode == .routed then r.1
      else { o with counters := { o.counters with blocked := bump o.counters.blocked } }

/-- R91: the pulse-end expiry, once local time has reached the end the pulse holds. -/
def OutputLine.expire (now : Nat) (o : OutputLine) : OutputLine :=
  match o.pulse with
  | none => o
  | some finish => if finish ≤ (now : Int) then { o with pulse := none } else o

/-! ### The commands -/

/-- LINE_IN_CONFIG (R82, R164): the settings are replaced and the line's capture state is reset; counters are kept. -/
def lineInExecution (f : LineInFields) : Execution := whole fun s =>
  if lineInInRange f then
    let n := lineOf f.line
    (setInput n { s.inputs[n] with config := lineInConfigOf f }.resetCapture s, .done .ok 0 0 0)
  else rejected .invalid s

/-- LINE_OUT_CONFIG (R93, R165): an active pulse is ended, the four settings are replaced; counters are kept. -/
def lineOutExecution (f : LineOutFields) : Execution := whole fun s =>
  if lineOutInRange f then
    let n := lineOf f.line
    (setOutput n { s.outputs[n] with
      pulse := none
      mode := outModeOf f.mode
      drive := if f.drive = 0 then .pushPull else .openDrain
      polarity := if f.polarity = 0 then .activeHigh else .activeLow
      resting := levelOf f.resting.toNat } s, .done .ok 0 0 0)
  else rejected .invalid s

/-- OUTPUT_SET (R95, R166). -/
def outputSetExecution (f : OutputSetFields) : Execution := whole fun s =>
  if outputSetInRange f then
    let n := lineOf f.line
    let o := s.outputs[n]
    if o.mode = .host ∧ s.part = .running then
      match o.act (outputSetKind f) (s.localTime : Int) s.localTime with
      | some (o1, outcome) =>
          (setOutput n o1 s,
            .done .ok (BitVec.ofNat 32 outcome.code) (BitVec.ofNat 32 o1.shown.code) 0)
      | none => rejected .invalid s
    else
      (s, .done .wrongMode (BitVec.ofNat 32 o.mode.code) (if s.part = .running then 0 else 1) 0)
  else rejected .invalid s

/-- R80: the named lines whose mode is not OFF, in ascending line number. -/
def refreshLines (lines : Word) (s : State) : List (Fin 16) :=
  lineNumbers.filter fun n => lines.getLsbD n.val && s.inputs[n].config.mode != .off

/-- REFRESH (R80, R167). -/
def refreshExecution (tag lines : Word) : Execution := fun falls s =>
  if refreshInRange lines then
    makeOffers { tag := tag, command := .refresh lines, lines := refreshLines lines s
                 made := 0, refused := 0, closed := false } falls s
  else whole (rejected .invalid) falls s

/-! ### The rows -/

/-- LINE_IN_CONFIG (R82). -/
def execLineInConfig (tag : Word) (f : LineInFields) (s : State) : Host.Outcome State Fault Refusal :=
  .next (runCommand .nothing 0x05 tag (lineInExecution f) s)

/-- LINE_OUT_CONFIG (R93). -/
def execLineOutConfig (tag : Word) (f : LineOutFields) (s : State) : Host.Outcome State Fault Refusal :=
  .next (runCommand .nothing 0x06 tag (lineOutExecution f) s)

/-- OUTPUT_SET (R95). -/
def execOutputSet (tag : Word) (f : OutputSetFields) (s : State) : Host.Outcome State Fault Refusal :=
  .next (runCommand .nothing 0x07 tag (outputSetExecution f) s)

/-- REFRESH (R80). -/
def execRefresh (tag : Word) (lines : Word) (s : State) (pause : Option Nat := none) :
    Host.Outcome State Fault Refusal :=
  .next (runOffering pause tag (.refresh lines) (refreshExecution tag lines) s)

/-- PULSE_END (R91). -/
def execPulseEnd (line : Fin 16) (s : State) : Host.Outcome State Fault Refusal :=
  .next (setOutput line (s.outputs[line].expire s.localTime) s)

end Sys2Proof.Machine
end

