-- ==== Sys2Proof/Machine/Stats.lean ====
section
/-! DEFINITION. STATS_READ's sections (11.5, 13.3): the items in their order, the bytes each shows, what the clear flag
does to it, and the rows STATS_ITEM_READ and STATS_READ_DONE. -/

namespace Sys2Proof.Machine

/-! ### Items (R190) -/

/-- R191 to R193: the items of a section in their fixed order. -/
def sectionItems : Section6 → List StatsItem
  | .routes => (List.finRange 256).flatMap fun e =>
      .routeGroup e :: (List.finRange 8).map fun k => .routeCounter e k
  | .inputs => (List.finRange 16).flatMap fun n =>
      .inputGroup n :: (List.finRange 5).map fun k => .inputCounter n k
  | .outputs => (List.finRange 16).flatMap fun n =>
      .outputGroup n :: (List.finRange 5).map fun k => .outputCounter n k
  | .link =>
      [.linkSession, .linkTransmit, .linkReceive, .linkAlignment] ++ (List.finRange 18).map .linkCounter
  | .rings =>
      [.ringsSelector, .ringsDeferred] ++ (List.finRange 6).map .ringGroup ++ (List.finRange 10).map .ringsCounter
  | .global =>
      (List.finRange 8).map .globalCounter ++ [.holdDepth, .holdPeak, .faultPin]
        ++ (List.finRange 9).map .faultClass

/-- R177: the items of the selected sections. -/
def itemsOf (sections : List Section6) : List StatsItem := sections.flatMap sectionItems

/-- The section an item stands in. -/
def StatsItem.section : StatsItem → Section6
  | .routeGroup _ | .routeCounter _ _ => .routes
  | .inputGroup _ | .inputCounter _ _ => .inputs
  | .outputGroup _ | .outputCounter _ _ => .outputs
  | .linkSession | .linkTransmit | .linkReceive | .linkAlignment | .linkCounter _ => .link
  | .ringsSelector | .ringsDeferred | .ringGroup _ | .ringsCounter _ => .rings
  | .globalCounter _ | .holdDepth | .holdPeak | .faultPin | .faultClass _ => .global

/-- 13.3: the length of a section's record. -/
def Section6.recordLength : Section6 → Nat
  | .routes => 48
  | .inputs => 64
  | .outputs => 48
  | .link => 128
  | .rings => 240
  | .global => 256

/-- R190: the item that opens its section, before which the header stands. -/
def StatsItem.opens : StatsItem → Bool
  | .routeGroup e => e == 0
  | .inputGroup n => n == 0
  | .outputGroup n => n == 0
  | .linkSession => true
  | .ringsSelector => true
  | .globalCounter k => k == 0
  | .routeCounter _ _ | .inputCounter _ _ | .outputCounter _ _ => false
  | .linkTransmit | .linkReceive | .linkAlignment | .linkCounter _ => false
  | .ringsDeferred | .ringGroup _ | .ringsCounter _ => false
  | .holdDepth | .holdPeak | .faultPin | .faultClass _ => false

/-- The item with which its record is complete. -/
def StatsItem.closes : StatsItem → Bool
  | .routeCounter _ k => k == 7
  | .inputCounter _ k => k == 4
  | .outputCounter _ k => k == 4
  | .linkCounter k => k == 17
  | .ringsCounter k => k == 9
  | .faultClass k => k == 8
  | .routeGroup _ | .inputGroup _ | .outputGroup _ => false
  | .linkSession | .linkTransmit | .linkReceive | .linkAlignment => false
  | .ringsSelector | .ringsDeferred | .ringGroup _ => false
  | .globalCounter _ | .holdDepth | .holdPeak | .faultPin => false

/-! ### Counters by their place -/

/-- R30: counter `k` of a route entry. -/
def RouteCounters.get (c : RouteCounters) : Fin 8 → Counter
  | 0 => c.routed
  | 1 => c.filtered
  | 2 => c.suppressed
  | 3 => c.lateDelivered
  | 4 => c.lateDiscarded
  | 5 => c.holdDropped
  | 6 => c.linkSent
  | 7 => c.linkDropped

/-- R30: counter `k` of a route entry set to 0. -/
def RouteCounters.clear (c : RouteCounters) : Fin 8 → RouteCounters
  | 0 => { c with routed := 0 }
  | 1 => { c with filtered := 0 }
  | 2 => { c with suppressed := 0 }
  | 3 => { c with lateDelivered := 0 }
  | 4 => { c with lateDiscarded := 0 }
  | 5 => { c with holdDropped := 0 }
  | 6 => { c with linkSent := 0 }
  | 7 => { c with linkDropped := 0 }

/-- R84: counter `k` of an input line. -/
def InCounters.get (c : InCounters) : Fin 5 → Counter
  | 0 => c.captured
  | 1 => c.glitches
  | 2 => c.coalesced
  | 3 => c.lost
  | 4 => c.refusedClosed

/-- R84: counter `k` of an input line set to 0. -/
def InCounters.clear (c : InCounters) : Fin 5 → InCounters
  | 0 => { c with captured := 0 }
  | 1 => { c with glitches := 0 }
  | 2 => { c with coalesced := 0 }
  | 3 => { c with lost := 0 }
  | 4 => { c with refusedClosed := 0 }

/-- R98: counter `k` of an output line, in the order of the OUTPUTS section. -/
def OutCounters.get (c : OutCounters) : Fin 5 → Counter
  | 0 => c.applied
  | 1 => c.redundant
  | 2 => c.blocked
  | 3 => c.truncated
  | 4 => c.retriggered

/-- R98: counter `k` of an output line set to 0. -/
def OutCounters.clear (c : OutCounters) : Fin 5 → OutCounters
  | 0 => { c with applied := 0 }
  | 1 => { c with redundant := 0 }
  | 2 => { c with blocked := 0 }
  | 3 => { c with truncated := 0 }
  | 4 => { c with retriggered := 0 }

/-- R119, R135: counter `k` of the LINK section. -/
def LinkCounters.get (c : LinkCounters) (k : Fin 18) : Counter :=
  match k.val with
  | 0 => c.framesSent
  | 1 => c.framesReceived
  | 2 => c.crcErrors
  | 3 => c.rxMalformed
  | 4 => c.rxUnexpected
  | 5 => c.hellosUnanswered
  | 6 => c.txDiscarded
  | 7 => c.retransmits
  | 8 => c.acksIgnored
  | 9 => c.eventsReceived
  | 10 => c.rxClosed
  | 11 => c.rxRefused
  | 12 => c.duplicates
  | 13 => c.outOfOrder
  | 14 => c.probesSent
  | 15 => c.probesAccepted
  | 16 => c.probesRejected
  | _ => c.echoesIgnored

/-- R119, R135: counter `k` of the LINK section set to 0. -/
def LinkCounters.clear (c : LinkCounters) (k : Fin 18) : LinkCounters :=
  match k.val with
  | 0 => { c with framesSent := 0 }
  | 1 => { c with framesReceived := 0 }
  | 2 => { c with crcErrors := 0 }
  | 3 => { c with rxMalformed := 0 }
  | 4 => { c with rxUnexpected := 0 }
  | 5 => { c with hellosUnanswered := 0 }
  | 6 => { c with txDiscarded := 0 }
  | 7 => { c with retransmits := 0 }
  | 8 => { c with acksIgnored := 0 }
  | 9 => { c with eventsReceived := 0 }
  | 10 => { c with rxClosed := 0 }
  | 11 => { c with rxRefused := 0 }
  | 12 => { c with duplicates := 0 }
  | 13 => { c with outOfOrder := 0 }
  | 14 => { c with probesSent := 0 }
  | 15 => { c with probesAccepted := 0 }
  | 16 => { c with probesRejected := 0 }
  | _ => { c with echoesIgnored := 0 }

/-- R152: counter `k` of the RINGS section: commands_taken, completions_posted, posted 0 to 3, lost 0 to 3. -/
def RingCounters.get (c : RingCounters) : Fin 10 → Counter
  | 0 => c.commandsTaken
  | 1 => c.completionsPosted
  | 2 => c.posted[0]
  | 3 => c.posted[1]
  | 4 => c.posted[2]
  | 5 => c.posted[3]
  | 6 => c.lost[0]
  | 7 => c.lost[1]
  | 8 => c.lost[2]
  | 9 => c.lost[3]

/-- R152: counter `k` of the RINGS section set to 0. -/
def RingCounters.clear (c : RingCounters) : Fin 10 → RingCounters
  | 0 => { c with commandsTaken := 0 }
  | 1 => { c with completionsPosted := 0 }
  | 2 => { c with posted := c.posted.set 0 0 }
  | 3 => { c with posted := c.posted.set 1 0 }
  | 4 => { c with posted := c.posted.set 2 0 }
  | 5 => { c with posted := c.posted.set 3 0 }
  | 6 => { c with lost := c.lost.set 0 0 }
  | 7 => { c with lost := c.lost.set 1 0 }
  | 8 => { c with lost := c.lost.set 2 0 }
  | 9 => { c with lost := c.lost.set 3 0 }

/-- R189: counter `k` of the GLOBAL section. -/
def globalCount (s : State) : Fin 8 → Counter
  | 0 => s.unrouted.line
  | 1 => s.unrouted.link
  | 2 => s.unrouted.host
  | 3 => s.discardedAtStop
  | 4 => s.holdCounters.inserted
  | 5 => s.holdCounters.released
  | 6 => s.holdCounters.cancelled
  | 7 => s.holdCounters.purged

/-- R189: counter `k` of the GLOBAL section set to 0. -/
def clearGlobal (s : State) : Fin 8 → State
  | 0 => { s with unrouted := { s.unrouted with line := 0 } }
  | 1 => { s with unrouted := { s.unrouted with link := 0 } }
  | 2 => { s with unrouted := { s.unrouted with host := 0 } }
  | 3 => { s with discardedAtStop := 0 }
  | 4 => { s with holdCounters := { s.holdCounters with inserted := 0 } }
  | 5 => { s with holdCounters := { s.holdCounters with released := 0 } }
  | 6 => { s with holdCounters := { s.holdCounters with cancelled := 0 } }
  | 7 => { s with holdCounters := { s.holdCounters with purged := 0 } }

/-! ### What an item shows (13.3) -/

/-- 13.3: a byte of bits, bit 0 first. -/
def bitsByte : List Bool → Nat
  | [] => 0
  | b :: bs => b.toNat + 2 * bitsByte bs

/-- One byte of a record. -/
def byteOf (n : Nat) : List Byte := [BitVec.ofNat 8 n]

/-- A signed 64-bit field (13.3). -/
def le8Int (i : Int) : List Byte := le 8 (BitVec.ofInt 64 i).toNat

/-- R191: the group of a route entry, bytes 0 to 15 of its record. -/
def routeGroupBytes (r : RouteEntry) : List Byte :=
  le 2 r.config.outputs.toNat ++ byteOf r.config.rings.toNat ++ byteOf r.config.kinds.toNat
    ++ byteOf r.state.code ++ [flagByte r.config.forward] ++ byteOf r.config.late.code ++ zeros 1
    ++ le 4 r.config.latency.toNat ++ le 2 r.config.width.toNat ++ zeros 2

/-- R191: the group of an input line, bytes 0 to 31 of its record. -/
def inputGroupBytes (l : InputLine) : List Byte :=
  byteOf l.config.mode.code ++ [flagByte l.config.announce] ++ [l.config.source]
    ++ byteOf (bitsByte [l.raw.isHigh, l.accepted.isHigh, l.reported.isHigh, l.candidate.isSome,
        l.spacingEnd.isSome, l.suppressed])
    ++ le 2 l.config.filter.toNat ++ zeros 2 ++ le 4 l.config.spacing.toNat ++ zeros 4
    ++ le 8 (l.candidate.getD 0) ++ le 8 (l.spacingEnd.getD 0)

/-- R86: the part drives the pin. -/
def OutputLine.driven (o : OutputLine) : Bool := o.pin != .released

/-- R99, R192: the group of an output line, bytes 0 to 15 of its record; `board` is the level the board gives on the
pin when the part releases it (log entry 25). -/
def outputGroupBytes (o : OutputLine) (board : Level) : List Byte :=
  byteOf o.mode.code ++ byteOf o.drive.code ++ byteOf o.polarity.code
    ++ byteOf (bitsByte [o.resting.isHigh, o.pulse.isSome, o.shown.isHigh, o.pinValue.isHigh, o.driven,
        (o.sampled board).isHigh])
    ++ zeros 4 ++ le8Int (o.pulse.getD 0)

/-- R192: the session group, bytes 0 to 6 and 8 to 31 of the LINK record. -/
def linkSessionBytes (l : Link) : List (Nat × List Byte) :=
  [(0, byteOf l.session.code ++ byteOf l.reason.code ++ le 2 l.own.toNat ++ le 2 l.recorded.toNat
      ++ byteOf l.params.retryLimit),
   (8, le 8 l.params.openTimeout ++ le 4 l.params.ackTimeout ++ le 4 l.params.idleTimeout
      ++ le 4 l.params.alignInterval ++ le 4 l.params.maxDelay)]

/-- R192: the retry count of the oldest window frame, 0 with the window empty. -/
def Link.oldestRetry (l : Link) : Nat :=
  match l.window with
  | [] => 0
  | w :: _ => w.retry

/-- R192: the transmit group, bytes 32 to 35 of the LINK record, read in one step (DESIGN CHOICE, log entry 41). -/
def linkTransmitBytes (l : Link) : List Byte :=
  byteOf l.queueDepth ++ byteOf l.window.length ++ [l.nextSeq] ++ byteOf l.oldestRetry

/-- R192: the alignment group, bytes 7, 37 to 38 and 40 to 55 of the LINK record. -/
def linkAlignmentBytes (l : Link) : List (Nat × List Byte) :=
  [(7, [flagByte l.fresh]),
   (37, [flagByte l.outstanding.isSome, match l.outstanding with | some p => p.1 | none => 0]),
   (40, le8Int l.offset ++ le8Int l.lastDelay)]

/-- R193: the deferred commands in flight as a set (13.1). -/
def deferredSet (s : State) : Nat :=
  bitsByte ([DeferredKind.linkOpen, .quiesce, .statsRead, .fence].map fun k => inFlight k s)

/-- R193: a ring record; the fill index of the command ring reads 0, and so does its loss count. -/
def ringBytes (present : Bool) (size : Nat) (base : Quad) (producer fill consumer loss : Nat) : List Byte :=
  [flagByte present] ++ zeros 3 ++ le 4 size ++ le 8 base.toNat ++ le 4 producer ++ le 4 fill ++ le 4 consumer
    ++ le 4 loss

/-- R193: the record of a completion or event ring. -/
def OutRing.statsBytes (r : OutRing) : List Byte :=
  ringBytes (r.size != 0) r.size r.base r.producer r.fill r.consumer r.loss.toNat

/-- R193: the six ring records, command, completion, event 0 to 3. -/
def ringGroupBytes (g : Geometry) : Fin 6 → List Byte
  | 0 => ringBytes true g.cmd.size g.cmd.base g.cmd.producer 0 g.cmd.consumer 0
  | 1 => g.compl.statsBytes
  | 2 => g.event[0].statsBytes
  | 3 => g.event[1].statsBytes
  | 4 => g.event[2].statsBytes
  | 5 => g.event[3].statsBytes

/-- 13.2: the code of the notice ring selector. -/
def selectorCode : Option (Fin 4) → Nat
  | none => 255
  | some r => r.val

/-- R193: a fault class record, 24 bytes; first context and first time are shown absent (0) while the flag is clear. -/
def faultClassBytes (f : FaultState) : List Byte :=
  [flagByte f.sticky, flagByte f.enabled, flagByte f.armed] ++ zeros 1 ++ le 2 f.count.toNat ++ zeros 2
    ++ le 4 (f.firstContext.getD 0).toNat ++ zeros 4 ++ le 8 (f.firstTime.getD 0)

/-- 13.1: the class of a class code. -/
def FaultClass.ofCode (k : Fin 9) : FaultClass := allFaultClasses[k.val]'k.isLt

/-- 13.3, R191 to R193: what an item shows, as bytes at offsets of its record. -/
def StatsItem.patches (board : BitVec 16) (s : State) : StatsItem → List (Nat × List Byte)
  | .routeGroup e => [(0, routeGroupBytes s.routes[e])]
  | .routeCounter e k => [(16 + 4 * k.val, le 4 (s.routes[e].counters.get k).toNat)]
  | .inputGroup n => [(0, inputGroupBytes s.inputs[n])]
  | .inputCounter n k => [(32 + 4 * k.val, le 4 (s.inputs[n].counters.get k).toNat)]
  | .outputGroup n => [(0, outputGroupBytes s.outputs[n] (if board.getLsbD n.val then .high else .low))]
  | .outputCounter n k => [(16 + 4 * k.val, le 4 (s.outputs[n].counters.get k).toNat)]
  | .linkSession => linkSessionBytes s.link
  | .linkTransmit => [(32, linkTransmitBytes s.link)]
  | .linkReceive => [(36, [s.link.expected])]
  | .linkAlignment => linkAlignmentBytes s.link
  | .linkCounter k => [(56 + 4 * k.val, le 4 (s.link.counters.get k).toNat)]
  | .ringsSelector => [(0, byteOf (selectorCode (noticeRing s)))]
  | .ringsDeferred => [(1, byteOf (deferredSet s))]
  | .ringGroup k => [(8 + 32 * k.val, match s.geom with | some g => ringGroupBytes g k | none => zeros 32)]
  | .ringsCounter k => [(200 + 4 * k.val, le 4 (s.ringCounters.get k).toNat)]
  | .globalCounter k => [(4 * k.val, le 4 (globalCount s k).toNat)]
  | .holdDepth => [(32, byteOf s.hold.length)]
  | .holdPeak => [(33, byteOf s.holdCounters.peak)]
  | .faultPin => [(34, [flagByte (faultAsserted s)])]
  | .faultClass k => [(40 + 24 * k.val, faultClassBytes s.faults[k])]

/-- Bytes laid over a record at an offset. -/
def poke (r : List Byte) (offset : Nat) (bytes : List Byte) : List Byte :=
  r.take offset ++ bytes ++ r.drop (offset + bytes.length)

/-- A record with several fields laid over it. -/
def pokeAll (r : List Byte) (patches : List (Nat × List Byte)) : List Byte :=
  patches.foldl (fun r p => poke r p.1 p.2) r

/-! ### Clear on read (R188) -/

/-- R188: what the clear flag does to an item as it is read: a counter goes to 0, peak to the depth, all else stays. -/
def StatsItem.clearIn (s : State) : StatsItem → State
  | .routeCounter e k =>
      { s with routes := s.routes.set e { s.routes[e] with counters := s.routes[e].counters.clear k } }
  | .inputCounter n k => setInput n { s.inputs[n] with counters := s.inputs[n].counters.clear k } s
  | .outputCounter n k => setOutput n { s.outputs[n] with counters := s.outputs[n].counters.clear k } s
  | .linkCounter k => countLink (fun c => c.clear k) s
  | .ringsCounter k => { s with ringCounters := s.ringCounters.clear k }
  | .globalCounter k => clearGlobal s k
  | .holdPeak => { s with holdCounters := { s.holdCounters with peak := s.hold.length } }
  | .routeGroup _ | .inputGroup _ | .outputGroup _ => s
  | .linkSession | .linkTransmit | .linkReceive | .linkAlignment => s
  | .ringsSelector | .ringsDeferred | .ringGroup _ => s
  | .holdDepth | .faultPin | .faultClass _ => s

/-! ### Reading an item, and completion (R177, R190) -/

/-- 13.3: a section header. -/
def sectionHeader (time : Nat) (x : Section6) : List Byte :=
  le 8 time ++ byteOf x.code ++ zeros 3 ++ le 4 x.size

/-- The buffer writes a STATS_READ has issued after reading `item` (its header and its record, when complete), and what
it then holds (log entry 13). -/
def StatsJob.read (j : StatsJob) (item : StatsItem) (rest : List StatsItem) (patches : List (Nat × List Byte))
    (time : Nat) : List BufferWrite × StatsJob :=
  let header := if item.opens then [⟨j.address, sectionHeader time item.section⟩] else []
  let a := if item.opens then j.address + 16 else j.address
  let r := pokeAll (if j.record.isEmpty then zeros item.section.recordLength else j.record) patches
  if item.closes then
    (header ++ [⟨a, r⟩], { j with address := a + r.length, todo := rest, record := [] })
  else (header, { j with address := a, todo := rest, record := r })

/-- The STATS_READ in flight holds `j`. -/
def setStatsJob (j : StatsJob) (s : State) : State :=
  { s with deferred := s.deferred.map fun d =>
      match d.job with
      | .statsRead _ => { d with job := .statsRead j }
      | .linkOpen | .quiesce _ _ | .fence _ _ => d }

/-- The STATS_READ in flight, if any. -/
def statsJob (s : State) : Option StatsJob :=
  match findDeferred .statsRead s with
  | some ⟨_, .statsRead j⟩ => some j
  | _ => none

/-- R190: the owning block reads the next item, clears it under the clear flag (R188), and the writes that are now
complete are issued. The header of a section is later than every read of the section before in the order of the reads;
both may fall at one local time (DESIGN CHOICE, log entry 38). -/
def statsItemRead (board : BitVec 16) (s : State) : State :=
  match s.part, statsJob s with
  | .running, some j =>
      match j.todo with
      | [] => s
      | item :: rest =>
          let out := j.read item rest (item.patches board s) s.localTime
          let s1 := setStatsJob out.2 { s with bufWrites := s.bufWrites ++ out.1 }
          if j.clear then item.clearIn s1 else s1
  | _, _ => s

/-- R177: every item read and every buffer write completed: the STATS_READ completes OK. -/
def statsReadDone (s : State) : State :=
  match s.part, statsJob s with
  | .running, some j =>
      if j.todo.isEmpty && s.bufWrites.isEmpty then
        settle (finishDeferred .statsRead .ok (BitVec.ofNat 32 j.written)
          (BitVec.ofNat 32 j.started) (BitVec.ofNat 32 (j.started / 2 ^ 32)) s)
      else s
  | _, _ => s

/-! ### The rows -/

/-- STATS_ITEM_READ (R190). -/
def execStatsItemRead (board : BitVec 16) (s : State) : Host.Outcome State Fault Refusal :=
  .next (statsItemRead board s)

/-- STATS_READ_DONE (R177). -/
def execStatsReadDone (s : State) : Host.Outcome State Fault Refusal := .next (statsReadDone s)

end Sys2Proof.Machine
end

