-- ==== Sys2Proof/Machine/DeferredCommands.lean ====
section
/-! DEFINITION. The link commands LINK_OPEN and LINK_CLOSE (10.7), the intake commands QUIESCE and OPEN (10.8),
STATS_READ (10.9) and FENCE (10.10), with QUIESCE_DEADLINE. -/

namespace Sys2Proof.Machine

/-! ### LINK_OPEN, LINK_CLOSE -/

/-- R105: 65,535 is followed by 1. -/
def nextSession (n : Half) : Half := if n = BitVec.allOnes 16 then 1 else n + 1

/-- R105, R106, R111: entry to CALLING with these parameters. -/
def Link.call (p : LinkParams) (l : Link) : Link :=
  ({ l with
     session := .calling
     params := p
     own := nextSession l.own
     recorded := 0
     openTimer := some 0
     keepTimer := some 0
     attempts := 0 } : Link).makeHello

/-- LINK_OPEN (R105, R171). -/
def linkOpenExecution (tag : Word) (f : LinkOpenFields) : Execution := whole fun s =>
  if linkOpenInRange f then
    match s.link.session with
    | .closed => (joinDeferred tag .linkOpen (onLink (Link.call (linkParamsOf f)) s), .joined)
    | .failed => (joinDeferred tag .linkOpen (onLink (Link.call (linkParamsOf f)) s), .joined)
    | .calling => (s, .done .busy (BitVec.ofNat 32 s.link.session.code) 0 0)
    | .aligning => (s, .done .linkState (BitVec.ofNat 32 s.link.session.code) 0 0)
    | .up => (s, .done .linkState (BitVec.ofNat 32 s.link.session.code) 0 0)
  else rejected .invalid s

/-- LINK_CLOSE (R115, R172). -/
def linkCloseExecution : Execution := whole fun s =>
  (if s.link.session = .closed then s else enterClosed .hostClose true s,
    .done .ok (BitVec.ofNat 32 s.link.session.code) 0 0)

/-! ### QUIESCE, OPEN -/

/-- R174: a QUIESCE in flight completes with its elapsed ticks, the intake load and the Hold Queue depth. -/
def finishQuiesce (status : Status) (s : State) : State :=
  match findDeferred .quiesce s with
  | some ⟨_, .quiesce _ elapsed⟩ =>
      finishDeferred .quiesce status (BitVec.ofNat 32 elapsed) (BitVec.ofNat 32 (intakeLoad s))
        (BitVec.ofNat 32 s.hold.length) s
  | _ => s

/-- QUIESCE (R10, R173): the condition is tested at once (`answerCommand` settles a joined command; a STOP that falls
after the request finds the test made). -/
def quiesceExecution (tag : Word) (deadline : Word) : Execution := whole fun s =>
  if deadline = 0 then rejected .invalid s
  else if inFlight .quiesce s then (s, .done .busy 0 0 0)
  else (settle (joinDeferred tag (.quiesce deadline.toNat 0) { s with intakeOpen := false }), .joined)

/-- OPEN (R10, R175): the intake opens while the part is RUNNING (R12: it stays CLOSED in STOPPING); a QUIESCE in flight
completes ABORTED first. -/
def openExecution : Execution := whole fun s =>
  (finishQuiesce .aborted { s with intakeOpen := s.part == .running },
    .done .ok (if s.intakeOpen then 1 else 0) (if inFlight .quiesce s then 1 else 0) 0)

/-- R174: the deadline of a QUIESCE in flight has passed. -/
def quiesceDeadline (s : State) : State :=
  match s.part, findDeferred .quiesce s with
  | .running, some ⟨_, .quiesce deadline elapsed⟩ =>
      if deadline ≤ elapsed then settle (finishQuiesce .deadline s) else s
  | _, _ => s

/-! ### STATS_READ, FENCE -/

/-- STATS_READ (R176). -/
def statsReadExecution (tag : Word) (f : StatsReadFields) : Execution := whole fun s =>
  if statsReadInRange f then
    if inFlight .statsRead s then (s, .done .busy 0 0 0)
    else
      (joinDeferred tag (.statsRead
        { clear := f.clear == 1, address := f.address.toNat, todo := itemsOf (sectionsOf f.sections)
          record := [], written := 0, started := s.localTime }) s, .joined)
  else rejected .invalid s

/-- FENCE (R179): it records the deferred commands in flight, and completes at once when there are none. -/
def fenceExecution (tag : Word) : Execution := whole fun s =>
  if inFlight .fence s then (s, .done .busy 0 0 0)
  else (settle (joinDeferred tag (.fence s.deferred.length (s.deferred.map fun d => d.job.kind)) s), .joined)

/-! ### The rows -/

/-- LINK_OPEN (R105). -/
def execLinkOpen (tag : Word) (f : LinkOpenFields) (s : State) : Host.Outcome State Fault Refusal :=
  .next (runCommand .nothing 0x0D tag (linkOpenExecution tag f) s)

/-- LINK_CLOSE (R115). -/
def execLinkClose (tag : Word) (s : State) : Host.Outcome State Fault Refusal :=
  .next (runCommand .nothing 0x0E tag linkCloseExecution s)

/-- QUIESCE (R173). -/
def execQuiesce (tag : Word) (deadline : Word) (s : State) : Host.Outcome State Fault Refusal :=
  .next (runCommand .nothing 0x0F tag (quiesceExecution tag deadline) s)

/-- OPEN (R175). -/
def execOpen (tag : Word) (s : State) : Host.Outcome State Fault Refusal :=
  .next (runCommand .nothing 0x10 tag openExecution s)

/-- STATS_READ (R176). -/
def execStatsRead (tag : Word) (f : StatsReadFields) (s : State) : Host.Outcome State Fault Refusal :=
  .next (runCommand .nothing 0x11 tag (statsReadExecution tag f) s)

/-- FENCE (R179). -/
def execFence (tag : Word) (s : State) : Host.Outcome State Fault Refusal :=
  .next (runCommand .nothing 0x13 tag (fenceExecution tag) s)

/-- QUIESCE_DEADLINE (R174). -/
def execQuiesceDeadline (s : State) : Host.Outcome State Fault Refusal := .next (quiesceDeadline s)

end Sys2Proof.Machine
end

