-- ==== Sys2Proof/Machine/FaultUnit.lean ====
section
/-! DEFINITION. The row FAULT_RAISE (R182): the Fault Unit takes a raise that has reached it. -/

namespace Sys2Proof.Machine

/-- R182, R185: the raise at place `index` of those that wait is taken. Raises of different blocks are taken in either
order, so any of them may be next (log entry 7). With no raise there, nothing is taken. -/
def faultRaise (index : Nat) (s : State) : State :=
  match s.raises[index]? with
  | none => s
  | some r => takeRaise r { s with raises := s.raises.eraseIdx index }

/-- FAULT_RAISE (R182). -/
def execFaultRaise (index : Nat) (s : State) : Host.Outcome State Fault Refusal := .next (faultRaise index s)

end Sys2Proof.Machine
end

