-- ==== Sys2Proof/Machine/HostCommands.lean ====
section
/-! DEFINITION. The host event commands SCHEDULE and CANCEL (10.5), the time commands TIME_READ and TIME_SET (10.6, 4.3,
4.4), and FAULTS (10.10). -/

namespace Sys2Proof.Machine

/-- The low 32 bits of a time (R64). -/
def lowWord (t : Nat) : Word := BitVec.ofNat 32 t

/-- The high 32 bits of a time (R64). -/
def highWord (t : Nat) : Word := BitVec.ofNat 32 (t / 2 ^ 32)

/-- R168: the event a SCHEDULE of this kind builds. -/
def scheduleEvent (f : ScheduleFields) (kind : EventKind) : Event :=
  { source := sourceOf f.source, kind := kind, capture := f.stamp.toNat, origin := .host f.eventTag
    flags := Flags.none }

/-- SCHEDULE (R168, R55). -/
def scheduleExecution (f : ScheduleFields) : Execution := whole fun s =>
  match scheduleKind f with
  | none => rejected .invalid s
  | some kind =>
      match offerAnswer s with
      | .accepted =>
          let s1 := offerEvent (scheduleEvent f kind) s
          ({ s1 with tags := tagsAfterSchedule f.eventTag s1.tags },
            .done .ok (lowWord s.localTime) (highWord s.localTime) 0)
      | .full => (s, .done .intakeFull 0 0 0)
      | .closed => (s, .done .closed 0 0 0)

/-- R48: the Hold Queue removes every HOST entry with the tag, in one step. -/
def cancelTag (tag : Word) (s : State) : State :=
  let kept := s.hold.filter fun h => !h.hasTag tag
  { s with
    hold := kept
    holdCounters := { s.holdCounters with
      cancelled := bumpBy (s.hold.length - kept.length) s.holdCounters.cancelled } }

/-- R57: the forwarded flag and the known flag of a tag. -/
def tagFlags (tag : Word) (ts : List TagRecord) : Word × Word :=
  match ts.find? fun t => t.tag == tag with
  | none => (0, 0)
  | some r => (if r.forwarded then 1 else 0, 1)

/-- CANCEL (R48, R57, R169). -/
def cancelExecution (eventTag : Word) : Execution := whole fun s =>
  let s1 := cancelTag eventTag s
  let flags := tagFlags eventTag s.tags
  (s1, .done .ok (BitVec.ofNat 32 (s.hold.length - s1.hold.length)) flags.1 flags.2)

/-- TIME_READ (R64). -/
def timeReadExecution : Execution := whole fun s =>
  (s, .done .ok (lowWord s.localTime) (highWord s.localTime) 0)

/-- R69: an accepted TIME_SET and the link: alignment STALE, the outstanding probe abandoned, unsent ECHOs dropped. -/
def Link.timeStep (l : Link) : Link := { l with fresh := false, outstanding := none, echoes := [] }

/-- R65 to R69: an accepted TIME_SET to `t`. -/
def stepTime (t : Nat) (s : State) : State :=
  let step : Int := (t : Int) - (s.localTime : Int)
  let s1 := resetCapture { s with localTime := t }
  let s2 := onLink Link.timeStep { s1 with
    outputs := mapBank (fun o => { o with pulse := o.pulse.map (· + step) }) s1.outputs
    delivery := s1.delivery.map fun d => { d with shift := d.shift + step } }
  if s.link.session = .up then raiseFault .alignStale 0 s2 else s2

/-- TIME_SET (R65, R170). -/
def timeSetExecution (time : Quad) : Execution := whole fun s =>
  if timeSetInRange time then
    if s.hold.isEmpty then
      (stepTime time.toNat s, .done .ok (lowWord s.localTime) (highWord s.localTime) 0)
    else (s, .done .notEmpty (BitVec.ofNat 32 s.hold.length) 0 0)
  else rejected .invalid s

/-- R178, step 1: the sticky set, one bit per class. -/
def stickySet (s : State) : Word :=
  BitVec.ofNat 32 ((allFaultClasses.map fun c => if (faultOf s c).sticky then 2 ^ c.code.val else 0).sum)

/-- R178: the report mask, one bit per class, 1 for enabled. -/
def reportMask (s : State) : Word :=
  BitVec.ofNat 32 ((allFaultClasses.map fun c => if (faultOf s c).enabled then 2 ^ c.code.val else 0).sum)

/-- R178, R186, R187: what a FAULTS does to the class with this code: cleared when named in the clear set, except
HOST_BUS; then its mask bit is written when the mask write flag is set. -/
def FaultState.afterFaults (f : FaultsFields) (code : Fin 9) (x : FaultState) : FaultState :=
  let x1 := if f.clear.getLsbD code.val && code != 0 then x.cleared else x
  if f.maskWrite = 1 then { x1 with enabled := f.mask.getLsbD code.val } else x1

/-- FAULTS (R178, R186, R187). -/
def faultsExecution (f : FaultsFields) : Execution := whole fun s =>
  if faultsInRange f then
    let s1 := { s with faults := Vector.ofFn fun i => FaultState.afterFaults f i s.faults[i] }
    (s1, .done .ok (stickySet s) (reportMask s1) ((s.faults[queryIndex f.query]).count.setWidth 32))
  else rejected .invalid s

/-! ### The rows -/

/-- SCHEDULE (R168). -/
def execSchedule (tag : Word) (f : ScheduleFields) (s : State) : Host.Outcome State Fault Refusal :=
  .next (runCommand .nothing 0x08 tag (scheduleExecution f) s)

/-- CANCEL (R48). -/
def execCancel (tag : Word) (eventTag : Word) (s : State) : Host.Outcome State Fault Refusal :=
  .next (runCommand .nothing 0x09 tag (cancelExecution eventTag) s)

/-- TIME_READ (R64). -/
def execTimeRead (tag : Word) (s : State) : Host.Outcome State Fault Refusal :=
  .next (runCommand .nothing 0x0B tag timeReadExecution s)

/-- TIME_SET (R65). -/
def execTimeSet (tag : Word) (time : Quad) (s : State) : Host.Outcome State Fault Refusal :=
  .next (runCommand .nothing 0x0C tag (timeSetExecution time) s)

/-- FAULTS (R178). -/
def execFaults (tag : Word) (f : FaultsFields) (s : State) : Host.Outcome State Fault Refusal :=
  .next (runCommand .nothing 0x12 tag (faultsExecution f) s)

end Sys2Proof.Machine
end

