-- ==== Sys2Proof/Machine/LinkTransmit.lean ====
section
/-! DEFINITION. The transmitter of the span link (R102, R122, R130, R131): the rows FRAME_TRANSMIT and FRAME_SENT. -/

namespace Sys2Proof.Machine

/-- R120, R122: the EVENT frame of a window frame. -/
def WindowFrame.frame (w : WindowFrame) : Frame :=
  .event w.seq w.event.source w.event.kind w.event.coalesced w.event.refresh (BitVec.ofNat 64 w.event.capture)

/-- R122: the window with its oldest PENDING frame marked SENT, and that frame with whether it was sent before. -/
def takePending : List WindowFrame → Option (List WindowFrame × LaneFrame)
  | [] => none
  | w :: ws =>
      if w.isPending then
        some ({ w with isPending := false, sentBefore := true } :: ws, ⟨w.frame, w.sentBefore⟩)
      else (takePending ws).map fun r => (w :: r.1, r.2)

/-- The lane takes `f`, a frame sent for the first time. -/
def Link.send (f : Frame) (l : Link) : Link := { l with lane := some ⟨f, false⟩ }

/-- R102: the transmitter takes the next waiting frame at local time `now`, by kind: a CLOSE (R115; log entry 19), ECHO,
ACK, PROBE, HELLO, EVENT, IDLE, those of one kind in the order made. A PROBE is stamped t1 and becomes outstanding
(R130); an ECHO is stamped t3 (R131). -/
def Link.transmit (now : Nat) (l : Link) : Link :=
  match l.closeWait with
  | some session => { l with closeWait := none }.send (.close session)
  | none =>
  match l.echoes with
  | e :: rest =>
      { l with echoes := rest }.send (.echo e.number e.t1 (BitVec.ofNat 64 e.t2) (BitVec.ofNat 64 now))
  | [] =>
  match l.ackWait with
  | some next => { l with ackWait := none }.send (.ack next)
  | none =>
  match l.probes with
  | n :: rest =>
      { l with probes := rest, outstanding := some (n, now) }.send (.probe n (BitVec.ofNat 64 now))
  | [] =>
  match l.hellos with
  | h :: rest => { l with hellos := rest }.send (.hello h.1 h.2)
  | [] =>
  match takePending l.window with
  | some r => { l with window := r.1, lane := some r.2 }
  | none =>
  match l.idles with
  | session :: rest => { l with idles := rest }.send (.idle session)
  | [] => l

/-- R102: the lane is free and the transmitter takes a frame. -/
def frameTransmit (s : State) : State :=
  if s.link.lane = none then onLink (Link.transmit s.localTime) s else s

/-- R122, R130: the counters that a frame's transmission end increments. -/
def LinkCounters.sent (f : LaneFrame) (c : LinkCounters) : LinkCounters :=
  let c1 := { c with framesSent := bump c.framesSent }
  match f.frame with
  | .event _ _ _ _ _ _ => if f.resend then { c1 with retransmits := bump c1.retransmits } else c1
  | .probe _ _ => { c1 with probesSent := bump c1.probesSent }
  | .hello _ _ => c1
  | .close _ => c1
  | .idle _ => c1
  | .ack _ => c1
  | .echo _ _ _ _ => c1

/-- R102, R111: the transmission in progress ends: the lane is free, the counters move, and the keepalive timer restarts
in CALLING, ALIGNING and UP. -/
def Link.sent (f : LaneFrame) (l : Link) : Link :=
  { l with
    lane := none
    counters := l.counters.sent f
    keepTimer := if l.session.inCall then some 0 else l.keepTimer }

/-- R102: a frame's transmission ends. -/
def frameSent (s : State) : State :=
  match s.link.lane with
  | none => s
  | some f => onLink (Link.sent f) s

/-- FRAME_TRANSMIT (R102). -/
def execFrameTransmit (s : State) : Host.Outcome State Fault Refusal := .next (frameTransmit s)

/-- FRAME_SENT (R102). -/
def execFrameSent (s : State) : Host.Outcome State Fault Refusal := .next (frameSent s)

end Sys2Proof.Machine
end

