-- ==== Sys2Proof/Machine/RouteCommands.lean ====
section
/-! DEFINITION. UNKNOWN_COMMAND and the four ROUTE_ commands (2.4, 10.3). -/

namespace Sys2Proof.Machine

/-- R156: a record whose kind is none of the nineteen completes UNKNOWN. -/
def unknownExecution : Execution := whole (rejected .unknown)

/-- R31, R80: the lines a ROUTE_SET with REFRESH states: mode not OFF and the entry's source ID. -/
def linesOfSource (source : Byte) (s : State) : List (Fin 16) :=
  lineNumbers.filter fun n => s.inputs[n].config.mode != .off && s.inputs[n].config.source == source

/-- R31: the entry's fields are replaced and its counters set to 0. -/
def replaceRoute (f : RouteSetFields) (s : State) : State :=
  setRoute (sourceOf f.source)
    { state := routeSetState f, config := routeSetConfig f, counters := RouteCounters.zero } s

/-- ROUTE_SET (R31, R161). -/
def routeSetExecution (tag : Word) (f : RouteSetFields) : Execution := fun falls s =>
  if routeSetInRange s f then
    if f.refresh = 1 then
      makeOffers { tag := tag, command := .routeSet f, lines := linesOfSource (sourceOf f.source) s
                   made := 0, refused := 0, closed := false } falls (replaceRoute f s)
    else whole (fun s => (replaceRoute f s, .done .ok 0 0 0)) falls s
  else whole (rejected .invalid) falls s

/-- R50: the Hold Queue removes every entry of a source ID, in one step. -/
def purge (source : Byte) (s : State) : State :=
  let kept := s.hold.filter fun h => h.event.source != source
  { s with
    hold := kept
    holdCounters := { s.holdCounters with
      purged := bumpBy (s.hold.length - kept.length) s.holdCounters.purged } }

/-- R33: the entry returns to UNUSED and its reset fields; its counters are kept. -/
def clearRoute (source : Byte) (s : State) : State :=
  setRoute source { RouteEntry.reset with counters := (routeOf s source).counters } s

/-- ROUTE_CLEAR (R33, R50, R162): the entry is made UNUSED before the purge. -/
def routeClearExecution (f : RouteClearFields) : Execution := whole fun s =>
  if routeClearInRange f then
    let s1 := clearRoute (sourceOf f.source) s
    if f.purge = 1 then
      let s2 := purge (sourceOf f.source) s1
      (s2, .done .ok (BitVec.ofNat 32 (s.hold.length - s2.hold.length)) 0 0)
    else (s1, .done .ok 0 0 0)
  else rejected .invalid s

/-- R34, R163: an entry that is not UNUSED takes a state; result word 1 is the state before (1 ACTIVE, 2 SUSPENDED). -/
def changeRouteState (target : RouteState) (source : Half) (s : State) : State × Answer :=
  if sourceInRange source then
    let r := routeOf s (sourceOf source)
    if r.state = .unused then rejected .invalid s
    else (setRoute (sourceOf source) { r with state := target } s, .done .ok (BitVec.ofNat 32 r.state.code) 0 0)
  else rejected .invalid s

/-- ROUTE_SUSPEND (R34, R163). -/
def routeSuspendExecution (source : Half) : Execution := whole (changeRouteState .suspended source)

/-- ROUTE_RESUME (R34, R163). -/
def routeResumeExecution (source : Half) : Execution := whole (changeRouteState .active source)

/-! ### The rows -/

/-- UNKNOWN_COMMAND (R156). A record of one of the nineteen kinds is another row's: no effect here (log entry 32). -/
def execUnknownCommand (tag : Word) (kind : Byte) (s : State) : Host.Outcome State Fault Refusal :=
  .next (if 1 ≤ kind.toNat ∧ kind.toNat ≤ 19 then s else runCommand .nothing kind tag unknownExecution s)

/-- ROUTE_SET (R31). Without REFRESH it makes no offers for other steps to fall between. -/
def execRouteSet (tag : Word) (f : RouteSetFields) (s : State) (pause : Option Nat := none) :
    Host.Outcome State Fault Refusal :=
  .next (runOffering (if f.refresh = 1 then pause else none) tag (.routeSet f) (routeSetExecution tag f) s)

/-- ROUTE_CLEAR (R33). -/
def execRouteClear (tag : Word) (f : RouteClearFields) (s : State) : Host.Outcome State Fault Refusal :=
  .next (runCommand .nothing 0x02 tag (routeClearExecution f) s)

/-- ROUTE_SUSPEND (R34). -/
def execRouteSuspend (tag : Word) (source : Half) (s : State) : Host.Outcome State Fault Refusal :=
  .next (runCommand .nothing 0x03 tag (routeSuspendExecution source) s)

/-- ROUTE_RESUME (R34). -/
def execRouteResume (tag : Word) (source : Half) (s : State) : Host.Outcome State Fault Refusal :=
  .next (runCommand .nothing 0x04 tag (routeResumeExecution source) s)

end Sys2Proof.Machine
end

