-- ==== Sys2Proof/Machine/StopRow.lean ====
section
/-! DEFINITION. The rows STOP (R140) and BUS_MASTER_ERROR (R138, R141): the part enters STOPPING or HALTED, between two
commands or inside the execution of one (R160). -/

namespace Sys2Proof.Machine

/-- The execution of a command record (10.3 to 10.10). -/
def executionOf (tag : Word) : Command → Execution
  | .unknown _ => unknownExecution
  | .routeSet f => routeSetExecution tag f
  | .routeClear f => routeClearExecution f
  | .routeSuspend source => routeSuspendExecution source
  | .routeResume source => routeResumeExecution source
  | .lineInConfig f => lineInExecution f
  | .lineOutConfig f => lineOutExecution f
  | .outputSet f => outputSetExecution f
  | .schedule f => scheduleExecution f
  | .cancel eventTag => cancelExecution eventTag
  | .refresh lines => refreshExecution tag lines
  | .timeRead => timeReadExecution
  | .timeSet time => timeSetExecution time
  | .linkOpen f => linkOpenExecution tag f
  | .linkClose => linkCloseExecution
  | .quiesce deadline => quiesceExecution tag deadline
  | .openIntake => openExecution
  | .statsRead f => statsReadExecution tag f
  | .faults f => faultsExecution f
  | .fence => fenceExecution tag

/-- R137, R140, R160: STOP acts in RUNNING alone. With no command taken by the same step the part enters STOPPING, and a
command record's read that is outstanding is dropped (R147). With one, the STOP falls inside its execution, and the
command completes with its own outcome (log entry 10). -/
def stopPart (during : Option Overtaken) (late : List LateOffer) (s : State) : State :=
  if s.part = .running then
    match during with
    | none => enterStopping late s
    | some o =>
        if s.cmdRead then
          runCommand (.stop o.requests late) (Command.code o.command) o.tag (executionOf o.tag o.command) s
        else enterStopping late s
  else s

/-- R160: a command has been taken and its execution has come as far as `o` says; it has no completion. -/
def executedSoFar (o : Overtaken) (s : State) : State :=
  let r := executionOf o.tag o.command (.others o.requests) (takeCommand s)
  match r.2 with
  | .underWay w => { r.1 with executing := some w }
  | .done _ _ _ _ => r.1
  | .joined => r.1

/-- R141, R160: the part enters HALTED, with no command taken by the same step or inside the execution of one, which then
gets no completion; `indexed` says whether the index write of that command, and those before it, have completed. -/
def haltPart (during : Option Overtaken) (late : List LateOffer) (indexed : Bool) (s : State) : State :=
  match during with
  | none => enterHalted late s
  | some o =>
      if s.part = .running ∧ s.cmdRead = true then
        enterHalted late (if indexed then commandIndexWritten (executedSoFar o s) else executedSoFar o s)
      else enterHalted late s

/-- R138, R141: a bus-master access error: in STARTING it ends the start with BUS_ERROR, in RUNNING and STOPPING it
halts the part; in IDLE and HALTED the part makes no access. -/
def busMasterError (during : Option Overtaken) (late : List LateOffer) (indexed : Bool) (s : State) : State :=
  match s.part with
  | .starting => failStart .busError s
  | .running => haltPart during late indexed s
  | .stopping => haltPart during late indexed s
  | .idle => s
  | .halted => s

/-- STOP (R140). -/
def execStop (during : Option Overtaken) (s : State) (late : List LateOffer := []) : Host.Outcome State Fault Refusal :=
  .next (stopPart during late s)

/-- BUS_MASTER_ERROR (R138, R141). -/
def execBusMasterError (s : State) (during : Option Overtaken := none) (late : List LateOffer := [])
    (indexed : Bool := false) : Host.Outcome State Fault Refusal :=
  .next (busMasterError during late indexed s)

end Sys2Proof.Machine
end

