-- ==== Sys2Proof/Machine/Registers.lean ====
section
/-! DEFINITION. The register window (13.5, R137, R144, R145, R153, R154, R199): the rows SUBMIT, RELEASE, INT_CAUSE,
INT_ENABLE and REGISTER_WRITE, and what a read returns. -/

namespace Sys2Proof.Machine

/-! ### SUBMIT and RELEASE -/

/-- R144: the command producer index becomes `p`. -/
def setProducer (p : Nat) (g : Geometry) : Geometry := { g with cmd := { g.cmd with producer := p } }

/-- R144: a word written to SUBMIT. -/
def submit (word : Word) (s : State) : State :=
  match s.part, s.geom with
  | .running, some g =>
      if word.toNat < g.cmd.size then commandFetch { s with geom := some (setProducer word.toNat g) }
      else raiseFault .hostProtocol word s
  | _, _ => s

/-- R145: the index `i` is in range for a ring: it is an index of the ring, no further ahead of the consumer index than
the producer index is. -/
def OutRing.releases (r : OutRing) (i : Nat) : Bool :=
  decide (i < r.size ∧ (i + r.size - r.consumer) % r.size ≤ (r.producer + r.size - r.consumer) % r.size)

/-- R145: the ring a selector names: COMPLETION (0) or EVENT0 to EVENT3 (1 to 4). -/
inductive ReleaseRing where
  | completion
  | event (ring : Fin 4)
deriving DecidableEq, Repr

/-- 13.5: the selector in bits 18:16 of a RELEASE word. -/
def releaseRing (word : Word) : Option ReleaseRing :=
  match (word.extractLsb' 16 3).toNat with
  | 0 => some .completion
  | 1 => some (.event 0)
  | 2 => some (.event 1)
  | 3 => some (.event 2)
  | 4 => some (.event 3)
  | _ => none

/-- 13.5: the consumer index in bits 15:0 of a RELEASE word. -/
def releaseIndex (word : Word) : Nat := (word.extractLsb' 0 16).toNat

/-- R145: the geometry after a RELEASE that is accepted; `none` when it is out of range. An absent event ring has size 0
and accepts no index. -/
def released (word : Word) (g : Geometry) : Option Geometry :=
  let i := releaseIndex word
  match releaseRing word with
  | none => none
  | some .completion =>
      if g.compl.releases i then some { g with compl := { g.compl with consumer := i } } else none
  | some (.event ring) =>
      if g.event[ring].releases i then some (g.setEvent ring { g.event[ring] with consumer := i }) else none

/-- R145, R147: a word written to RELEASE; slots freed in the completion ring may let the next command be taken. -/
def release (word : Word) (s : State) : State :=
  match s.part, s.geom with
  | .running, some g =>
      match released word g with
      | some g1 => commandFetch { s with geom := some g1 }
      | none => raiseFault .hostProtocol word s
  | _, _ => s

/-! ### INT_CAUSE and INT_ENABLE -/

/-- R153: each cause bit written at 1 is cleared. While RESET_N is asserted the part is in reset (log entry 6). -/
def writeCause (word : Word) (s : State) : State :=
  if s.resetHeld then s else setIntRegs (s.intCause &&& ~~~(word.setWidth 7)) s.intEnable s

/-- R154: the enable bits take the bits written. -/
def writeEnable (word : Word) (s : State) : State :=
  if s.resetHeld then s else setIntRegs s.intCause (word.setWidth 7) s

/-! ### Any write and read of the window -/

/-- R137: the action of a word written to CONTROL: RESET in every state, else START in IDLE, else STOP in RUNNING. -/
def control (word : Word) (s : State) : State :=
  if word.getLsbD 2 then deviceReset s
  else if word.getLsbD 0 && s.part == .idle then startPart s
  else if word.getLsbD 1 then stopPart none [] s
  else s

/-- R199: `count` bytes written at `offset`. A write of four bytes to a word acts, and one of fewer is ignored; IDENT,
STATUS and offsets from 24h ignore every write. DESIGN CHOICE: a write of more than four bytes, of which R199 says nothing,
is ignored (log entry 37). A write of a register with a row of its own acts as that register (log entry 32). -/
def registerWrite (offset count : Nat) (word : Word) (s : State) : State :=
  if s.resetHeld || count != 4 then s
  else match offset with
    | 0x04 => control word s
    | 0x0C => { s with setupLo := word }
    | 0x10 => { s with setupHi := word }
    | 0x14 => submit word s
    | 0x18 => release word s
    | 0x1C => writeCause word s
    | 0x20 => writeEnable word s
    | _ => s

/-- 13.5: the word a register shows; a read changes no state (R199; log entry 30). -/
def State.readWord (s : State) (offset : Nat) : Word :=
  match offset with
  | 0x00 => 0x01161C3D
  | 0x08 => statusWord s
  | 0x0C => s.setupLo
  | 0x10 => s.setupHi
  | 0x14 => match s.geom with
      | some g => BitVec.ofNat 32 g.cmd.producer
      | none => 0
  | 0x1C => s.intCause.setWidth 32
  | 0x20 => s.intEnable.setWidth 32
  | _ => 0

/-- R199: a read returns the bytes addressed, from the register's value at the read. -/
def State.readBytes (s : State) (offset count : Nat) : List Byte :=
  (List.range count).map fun i =>
    let a := offset + i
    (s.readWord (a - a % 4)).extractLsb' (8 * (a % 4)) 8

/-! ### The rows -/

/-- SUBMIT (R144). -/
def execSubmit (word : Word) (s : State) : Host.Outcome State Fault Refusal := .next (submit word s)

/-- RELEASE (R145). -/
def execRelease (word : Word) (s : State) : Host.Outcome State Fault Refusal := .next (release word s)

/-- INT_CAUSE (R153). -/
def execIntCause (word : Word) (s : State) : Host.Outcome State Fault Refusal := .next (writeCause word s)

/-- INT_ENABLE (R154). -/
def execIntEnable (word : Word) (s : State) : Host.Outcome State Fault Refusal := .next (writeEnable word s)

/-- REGISTER_WRITE (R199). -/
def execRegisterWrite (offset count : Nat) (word : Word) (s : State) : Host.Outcome State Fault Refusal :=
  .next (registerWrite offset count word s)

end Sys2Proof.Machine
end

