-- ==== Sys2Proof/Machine/Router.lean ====
section
/-! DEFINITION. The Router's decision (2.2): lookup, kind filter, pulse conversion, link forward, local destinations,
release time and outcome; the row ROUTER_TAKE. -/

namespace Sys2Proof.Machine

/-- A counter of a source ID's entry is changed, as the entry stands then (R18, R30). -/
def countRoute (source : Byte) (f : RouteCounters → RouteCounters) (s : State) : State :=
  setRoute source { routeOf s source with counters := f (routeOf s source).counters } s

/-- R17: the unrouted counter of an origin class is incremented. -/
def Unrouted.count (o : Origin) (u : Unrouted) : Unrouted :=
  match o with
  | .line _ => { u with line := bump u.line }
  | .link => { u with link := bump u.link }
  | .host _ => { u with host := bump u.host }

/-- R19: the entry accepts the kind, as the producer made it. -/
def RouteConfig.accepts (c : RouteConfig) (k : EventKind) : Bool := c.kinds.getLsbD k.code

/-- R20: the kind after pulse conversion; `none` is a consumed FALL. -/
def RouteConfig.convert (c : RouteConfig) (k : EventKind) : Option EventKind :=
  if c.width = 0 then some k
  else match k with
    | .rise => some (.pulse c.width)
    | .fall => none
    | .state l => some (.state l)
    | .pulse w => some (.pulse w)
    | .mark w => some (.mark w)

/-- R22: events of origin LINE and HOST are forwarded. -/
def Origin.forwards : Origin → Bool
  | .line _ => true
  | .link => false
  | .host _ => true

/-- R22: the frame content an event is enqueued with. -/
def txEventOf (e : Event) : TxEvent :=
  { source := e.source, kind := e.kind, capture := e.capture
    coalesced := e.flags.coalesced, refresh := e.flags.refresh }

/-- R23, R56: a QUEUED event of origin HOST has its tag marked forwarded. -/
def markForwarded (o : Origin) (s : State) : State :=
  match o with
  | .host tag => { s with tags := tagsAfterForward tag s.tags }
  | .line _ => s
  | .link => s

/-- A source ID as a fault context value (R181). -/
def sourceContext (source : Byte) : Word := source.setWidth 32

/-- R23: the enqueue request and the Router's action on its answer. -/
def forward (e : Event) (s : State) : State :=
  match s.link.enqueueAnswer with
  | .queued =>
      markForwarded e.origin (countRoute e.source (fun c => { c with linkSent := bump c.linkSent })
        (onLink (Link.enqueue (txEventOf e)) s))
  | .notUp => countRoute e.source (fun c => { c with linkDropped := bump c.linkDropped }) s
  | .full =>
      raiseFault .linkBacklog (sourceContext e.source)
        (countRoute e.source (fun c => { c with linkDropped := bump c.linkDropped }) s)

/-- R25: the release time: now for an UNALIGNED event, else capture time plus L. -/
def releaseTime (c : RouteConfig) (e : Event) (now : Nat) : Nat :=
  if e.flags.unaligned then now else e.capture + c.latency.toNat

/-- R25: the outcomes of an event with local destinations. -/
inductive RouteOutcome where
  | immediate
  | late
  | held
deriving DecidableEq, Repr

/-- R25: the outcome at `now`. -/
def outcomeOf (c : RouteConfig) (e : Event) (now : Nat) : RouteOutcome :=
  if e.flags.unaligned then .immediate
  else if now < releaseTime c e now then .held
  else if c.latency = 0 then .immediate
  else .late

/-- R28, R38, R59: the insertion is answered INSERTED or FULL. -/
def insertHold (h : HoldEntry) (s : State) : State :=
  if s.hold.length < Config.holdCapacity then
    let hold := holdInsert h s.hold
    { s with
      hold := hold
      holdCounters := { s.holdCounters with
        inserted := bump s.holdCounters.inserted
        peak := max s.holdCounters.peak hold.length } }
  else
    raiseFault .holdFull (sourceContext h.event.source)
      (countRoute h.event.source (fun c => { c with holdDropped := bump c.holdDropped }) s)

/-- R25 to R28: the release time and outcome of an event with these local destinations. -/
def decideOutcome (c : RouteConfig) (e : Event) (outputs : BitVec 16) (rings : BitVec 4) (s : State) : State :=
  let r := releaseTime c e s.localTime
  match outcomeOf c e s.localTime with
  | .immediate =>
      { s with handover := some { event := e, outputs := outputs, rings := rings, release := r, late := false } }
  | .late =>
      let s1 := raiseFault .deadline (sourceContext e.source) s
      match c.late with
      | .deliverLate =>
          { countRoute e.source (fun c => { c with lateDelivered := bump c.lateDelivered }) s1 with
            handover := some { event := e, outputs := outputs, rings := rings, release := r, late := true } }
      | .discard => countRoute e.source (fun c => { c with lateDiscarded := bump c.lateDiscarded }) s1
  | .held => insertHold { release := r, event := e, outputs := outputs, rings := rings } s

/-- R24 to R28: the local destinations of a routed event, and its outcome. -/
def decideLocal (c : RouteConfig) (e : Event) (s : State) : State :=
  let rings := c.rings &&& presentRings s
  if c.outputs = 0 ∧ rings = 0 then s else decideOutcome c e c.outputs rings s

/-- R22, R23: the link forward of a routed event (its kind converted), when its entry and origin call for one. -/
def forwardPart (c : RouteConfig) (e : Event) (s : State) : State :=
  if c.forward && e.origin.forwards then forward e s else s

/-- R18: the decision goes on by `run`, or waits here when `pause` names the stage it has reached. -/
def Deciding.reach (d : Deciding) (pause : Option DecisionStage) (run : State → State) (s : State) : State :=
  if pause = some d.stage then { s with deciding := some d } else run s

/-- R22 to R28: the decision on an event counted in routed. -/
def decideForward (pause : Option DecisionStage) (d : Deciding) (s : State) : State :=
  Deciding.reach { d with stage := .forwarded } pause (decideLocal d.config d.event) (forwardPart d.config d.event s)

/-- R21: a routed event (its kind converted) is counted, and the decision goes on. -/
def routeEvent (pause : Option DecisionStage) (d : Deciding) (s : State) : State :=
  Deciding.reach { d with stage := .counted } pause (decideForward pause d)
    (countRoute d.event.source (fun c => { c with routed := bump c.routed }) s)

/-- R18 to R20: the decision on a reading that is not UNUSED. -/
def decideReading (pause : Option DecisionStage) (d : Deciding) (s : State) : State :=
  let e := d.event
  if d.suspended then countRoute e.source (fun c => { c with suppressed := bump c.suppressed }) s
  else if d.config.accepts e.kind then
    match d.config.convert e.kind with
    | none => countRoute e.source (fun c => { c with filtered := bump c.filtered }) s
    | some kind => routeEvent pause { d with event := { e with kind := kind } } s
  else countRoute e.source (fun c => { c with filtered := bump c.filtered }) s

/-- R18: the lookup of an event's route entry: the decision that goes on, or `none` where the entry is UNUSED. -/
def lookup (e : Event) (s : State) : Option Deciding :=
  let entry := routeOf s e.source
  let reading := fun suspended : Bool =>
    ({ event := e, suspended := suspended, config := entry.config, stage := .lookedUp } : Deciding)
  match entry.state with
  | .unused => none
  | .suspended => some (reading true)
  | .active => some (reading false)

/-- R17, R18: an event the Router takes is looked up. With the entry UNUSED it is counted as unrouted at the lookup, and
its decision ends there; else the decision goes on. -/
def decideEvent (pause : Option DecisionStage) (e : Event) (s : State) : State :=
  match lookup e s with
  | none => { s with unrouted := s.unrouted.count e.origin }
  | some d => d.reach pause (decideReading pause d) s

/-- R18, R32: a decision that waits goes on from its stage, on the reading made at its lookup. -/
def resumeDecision (pause : Option DecisionStage) (d : Deciding) (s : State) : State :=
  match d.stage with
  | .lookedUp => decideReading pause d s
  | .counted => decideForward pause d s
  | .forwarded => decideLocal d.config d.event s

/-- R9, R18: the Router goes on with the decision under way, or takes the oldest event of the intake and decides on it. It
takes none while the part is not RUNNING or while an earlier decision waits for the Release Unit (R41). The end of a
decision may bring about release quiet with the intake empty (R174). -/
def routerTake (pause : Option DecisionStage) (s : State) : State :=
  if s.part = .running ∧ s.handover = none then
    match s.deciding, s.intake with
    | some d, _ => settle (resumeDecision pause d { s with deciding := none })
    | none, [] => s
    | none, e :: rest => settle (decideEvent pause e { s with intake := rest })
  else s

/-- ROUTER_TAKE (R18). -/
def execRouterTake (s : State) (pause : Option DecisionStage := none) : Host.Outcome State Fault Refusal :=
  .next (routerTake pause s)

end Sys2Proof.Machine
end

