-- ==== Sys2Proof/Machine/Release.lean ====
section
/-! DEFINITION. The Release Unit (3.3, 3.4) and the takes of its requests and records: the rows HOLD_RELEASE,
HANDOVER_TAKE, APPLICATION_REQUEST and EVENT_RECORD_TAKE. -/

namespace Sys2Proof.Machine

/-! ### Takes of the Release Unit (R40, R41, R43) -/

/-- R43: the delivery a held entry becomes when it is taken at `now`. -/
def HoldEntry.deliver (now : Nat) (h : HoldEntry) : Delivery :=
  { event := h.event, outputs := h.outputs, rings := h.rings, release := h.release, late := false
    time := now, shift := 0 }

/-- R43: the delivery a hand-over becomes when it is taken at `now`. -/
def Handover.deliver (now : Nat) (h : Handover) : Delivery :=
  { event := h.event, outputs := h.outputs, rings := h.rings, release := h.release, late := h.late
    time := now, shift := 0 }

/-- R40: the Release Unit takes the head of the Hold Queue when it is due, the part is RUNNING, and no delivery is in
progress. -/
def holdRelease (s : State) : State :=
  if s.part = .running ∧ s.delivery = none then
    match s.hold with
    | [] => s
    | h :: rest =>
        if h.release ≤ s.localTime then
          { s with
            hold := rest
            holdCounters := { s.holdCounters with released := bump s.holdCounters.released }
            delivery := some (h.deliver s.localTime) }
        else s
  else s

/-- R41: the Release Unit takes the hand-over that waits, and the Router's decision ends. -/
def handoverTake (s : State) : State :=
  if s.part = .running ∧ s.delivery = none then
    match s.handover with
    | none => s
    | some h => { s with handover := none, delivery := some (h.deliver s.localTime) }
  else s

/-! ### Ends of a delivery (R44) -/

/-- R44: the delivery with what is left of it; it ends when every request and record has been taken. -/
def Delivery.left (d : Delivery) : Option Delivery :=
  if d.outputs = 0 ∧ d.rings = 0 then none else some d

/-- R44, R88, R68: the Output Unit takes the delivery's request for `line`. A pulse is measured from the delivery time,
moved by the TIME_SET steps accepted since the take. -/
def applicationRequest (line : Fin 16) (s : State) : State :=
  match s.delivery with
  | none => s
  | some d =>
      if d.outputs.getLsbD line.val then
        settle (setOutput line
          (s.outputs[line].request d.event.kind ((d.time : Int) + d.shift) s.localTime (s.part == .running))
          { s with delivery := { d with outputs := without d.outputs line.val }.left })
      else s

/-- R62, R197: the lateness field: delivery time minus intended release time, saturated at 4,294,967,295. A release time
after the delivery time is log entry 16. -/
def lateness (release time : Nat) : Word :=
  if time < release then Config.latenessAcrossStep release time
  else if time - release < 2 ^ 32 then BitVec.ofNat 32 (time - release)
  else BitVec.allOnes 32

/-- R45: the EVENT record of a delivery. -/
def Delivery.record (d : Delivery) : HostRecord :=
  .event d.event.source d.event.kind d.event.origin d.event.flags d.late d.event.capture d.time
    (lateness d.release d.time)

/-- R150: the Ring Engine takes the next record of a poster: the delivery's EVENT record for a ring, the Fault Unit's
oldest notice, or the Link Controller's oldest notice. -/
def eventRecordTake (poster : Poster) (s : State) : State :=
  if postsRecords s.part then
    match poster with
    | .release ring =>
        match s.delivery with
        | none => s
        | some d =>
            if d.rings.getLsbD ring.val then
              settle (takeRecord ring d.record
                { s with delivery := { d with rings := without d.rings ring.val }.left })
            else s
    | .faultUnit =>
        match noticeRing s, s.faultNotices with
        | some ring, r :: rest => takeRecord ring r { s with faultNotices := rest }
        | _, _ => s
    | .linkController =>
        match noticeRing s, s.linkNotices with
        | some ring, r :: rest => takeRecord ring r { s with linkNotices := rest }
        | _, _ => s
  else s

/-! ### The rows -/

/-- HOLD_RELEASE (R40). -/
def execHoldRelease (s : State) : Host.Outcome State Fault Refusal := .next (holdRelease s)

/-- HANDOVER_TAKE (R41). -/
def execHandoverTake (s : State) : Host.Outcome State Fault Refusal := .next (handoverTake s)

/-- APPLICATION_REQUEST (R88). -/
def execApplicationRequest (line : Fin 16) (s : State) : Host.Outcome State Fault Refusal :=
  .next (applicationRequest line s)

/-- EVENT_RECORD_TAKE (R150). -/
def execEventRecordTake (poster : Poster) (s : State) : Host.Outcome State Fault Refusal :=
  .next (eventRecordTake poster s)

end Sys2Proof.Machine
end

