-- ==== Sys2Proof/Machine/RingWrites.lean ====
section
/-! DEFINITION. Writes into host memory that complete: records of the completion and event rings, and the index writes
that follow them (R146, R149, R150), the STATS_READ buffer (R177), and writes left on the bus (R142); the row
RECORD_WRITE_DONE. -/

namespace Sys2Proof.Machine

/-- R143: the producer index moves to the slot after the record written. -/
def OutRing.written (r : OutRing) (w : RingWrite) (rest : List RingWrite) : OutRing :=
  { r with producer := (w.slot + 1) % r.size, writes := rest }

/-- R146, R149: the oldest completion's write ends: its bytes are in host memory, and the write of the completion producer
index is made. -/
def completionWritten (s : State) : State :=
  match s.geom with
  | none => s
  | some g =>
      match g.compl.writes with
      | [] => s
      | w :: rest =>
          let r := g.compl.written w rest
          makeIndexWrite .completion r.producer (writeHost (g.compl.slotAddress w.slot) w.record.bytes
            { s with geom := some { g with compl := r } })

/-- R146, R150, R151: the oldest record's write of an event ring ends: its bytes are in host memory, and the write of the
ring's producer index is made. -/
def eventWritten (ring : Fin 4) (s : State) : State :=
  match s.geom with
  | none => s
  | some g =>
      match g.event[ring].writes with
      | [] => s
      | w :: rest =>
          let r := g.event[ring].written w rest
          makeIndexWrite (.event ring) r.producer (writeHost (g.event[ring].slotAddress w.slot) w.record.bytes
            { s with geom := some (g.setEvent ring r) })

/-- R149, R150, R153: with a ring's producer index written, its record is counted as posted and its cause is set; the
command consumer index brings nothing with it. -/
def indexShown (field : IndexField) (s : State) : State :=
  match field with
  | .command => s
  | .completion => setCause .completion { s with
      ringCounters := { s.ringCounters with completionsPosted := bump s.ringCounters.completionsPosted } }
  | .event ring => setCause (.event ring) { s with
      ringCounters := { s.ringCounters with
        posted := s.ringCounters.posted.set ring (bump s.ringCounters.posted[ring]) } }

/-- R146: the oldest write made of an index field completes. -/
def indexWritten (field : IndexField) (s : State) : State :=
  match s.geom, s.indexWrites.find? (·.field == field) with
  | some g, some w =>
      indexShown field (writeIndex g.status (indexOffset field) w.value
        { s with indexWrites := s.indexWrites.eraseP (·.field == field) })
  | _, _ => s

/-- R177: the oldest STATS_READ buffer write completes; while the STATS_READ is in flight its bytes count as written. -/
def bufferWritten (s : State) : State :=
  match s.bufWrites with
  | [] => s
  | w :: rest =>
      let s1 := writeHost w.address w.bytes { s with bufWrites := rest }
      match statsJob s with
      | some j => setStatsJob { j with written := j.written + w.bytes.length } s1
      | none => s1

/-- The bytes of two writes have no address in common. -/
def BufferWrite.apart (w v : BufferWrite) : Bool :=
  decide (w.address + w.bytes.length ≤ v.address ∨ v.address + v.bytes.length ≤ w.address)

/-- R142, R146: a write that a device reset or the entry to HALTED left on the bus completes there, not before an earlier
one of the same bytes; nothing else follows (log entry 36). -/
def issuedWritten (index : Nat) (s : State) : State :=
  match s.issued[index]? with
  | none => s
  | some w =>
      if (s.issued.take index).all (BufferWrite.apart w) then
        writeHost w.address w.bytes { s with issued := s.issued.eraseIdx index }
      else s

/-- R146, R142: a write into host memory completes: one of the run in RUNNING or STOPPING (R136), one left on the bus in
any part state. -/
def recordWriteDone (target : WriteTarget) (s : State) : State :=
  match target with
  | .completionRing => if postsRecords s.part then completionWritten s else s
  | .eventRing ring => if postsRecords s.part then eventWritten ring s else s
  | .index field => if postsRecords s.part then indexWritten field s else s
  | .statsBuffer => if postsRecords s.part then bufferWritten s else s
  | .issued index => issuedWritten index s

/-- RECORD_WRITE_DONE (R146). -/
def execRecordWriteDone (target : WriteTarget) (s : State) : Host.Outcome State Fault Refusal :=
  .next (recordWriteDone target s)

end Sys2Proof.Machine
end

