-- ==== Sys2Proof/Machine/Timers.lean ====
section
/-! DEFINITION. TICK (R60) and the expiries of the link's elapsed timers (R106, R107, R109, R111, R112, R125, R130,
R133): the rows HELLO_TIMER to STALENESS_TIMEOUT, and TICK. -/

namespace Sys2Proof.Machine

/-- A running timer has reached an interval (R62, R63). -/
def reached (t : Option Nat) (interval : Nat) : Bool :=
  match t with
  | none => false
  | some n => decide (interval ≤ n)

/-- R106: 10,000 ticks have passed since the last HELLO in CALLING or ALIGNING. -/
def helloTimer (s : State) : State :=
  let l := s.link
  if (l.session = .calling ∨ l.session = .aligning) ∧ reached l.helloTimer Config.helloInterval = true then
    onLink Link.makeHello s
  else s

/-- R107: the open timer expires in CALLING. -/
def openTimeout (s : State) : State :=
  let l := s.link
  if l.session = .calling ∧ reached l.openTimer l.params.openTimeout = true then settle (enterFailed .timeout s)
  else s

/-- R111: an IDLE is made; the timer stands still until a transmission ends (log entry 20). -/
def Link.makeIdle (l : Link) : Link := { l with idles := l.idles ++ [l.own], keepTimer := none }

/-- R111: a quarter of the idle timeout has passed with no frame sent. -/
def keepalive (s : State) : State :=
  let l := s.link
  if l.session.inCall = true ∧ reached l.keepTimer (l.params.idleTimeout / 4) = true then onLink Link.makeIdle s
  else s

/-- R112: the idle timeout has passed with no intact frame. -/
def silenceTimeout (s : State) : State :=
  let l := s.link
  if (l.session = .aligning ∨ l.session = .up) ∧ reached l.silenceTimer l.params.idleTimeout = true then
    settle (enterFailed .silent s)
  else s

/-- R109: the next probe attempt begins. -/
def Link.nextAttempt (l : Link) : Link :=
  { l with attempts := l.attempts + 1, attemptTimer := some 0 }.makeProbe

/-- R109: a probe attempt's align interval has ended in ALIGNING. -/
def probeAttemptEnd (s : State) : State :=
  let l := s.link
  if l.session = .aligning ∧ reached l.attemptTimer l.params.alignInterval = true then
    if l.attempts < Config.probeAttempts then onLink Link.nextAttempt s
    else settle (enterFailed .alignFailed s)
  else s

/-- R130: the probe timer expires in UP: it restarts and a PROBE is made. -/
def probeTimer (s : State) : State :=
  let l := s.link
  if l.session = .up ∧ reached l.probeTimer l.params.alignInterval = true then
    onLink (fun l => { l with probeTimer := some 0 }.makeProbe) s
  else s

/-- R125: the whole window is sent again: the oldest frame's retry count is one higher, every mark PENDING. -/
def resendWindow : List WindowFrame → List WindowFrame
  | [] => []
  | w :: ws => ({ w with retry := w.retry + 1 } :: ws).map fun x => { x with isPending := true }

/-- R125: the ack timer expires in UP. -/
def ackTimeout (s : State) : State :=
  let l := s.link
  if l.session = .up ∧ reached l.ackTimer l.params.ackTimeout = true then
    match l.window with
    | [] => s
    | w :: _ =>
        if w.retry < l.params.retryLimit then
          onLink (fun l => { l with window := resendWindow l.window, ackTimer := some 0 }) s
        else settle (enterFailed .retryLimit s)
  else s

/-- R133: four align intervals have passed with no accepted ECHO; the timer stops, and a FRESH alignment becomes
STALE. -/
def stalenessTimeout (s : State) : State :=
  let l := s.link
  if l.session = .up ∧ reached l.staleTimer (4 * l.params.alignInterval) = true then
    let s1 := onLink (fun l => { l with staleTimer := none, fresh := false }) s
    if l.fresh then raiseFault .alignStale 1 s1 else s1
  else s

/-! ### TICK -/

/-- A running timer counts a tick. -/
def tickTimer (t : Option Nat) : Option Nat := t.map (· + 1)

/-- R63: every running timer of the link counts a tick. -/
def Link.tick (l : Link) : Link :=
  { l with
    openTimer := tickTimer l.openTimer
    helloTimer := tickTimer l.helloTimer
    keepTimer := tickTimer l.keepTimer
    silenceTimer := tickTimer l.silenceTimer
    attemptTimer := tickTimer l.attemptTimer
    ackTimer := tickTimer l.ackTimer
    probeTimer := tickTimer l.probeTimer
    staleTimer := tickTimer l.staleTimer }

/-- R173: a QUIESCE in flight counts a tick of its deadline interval. -/
def Deferred.tick (d : Deferred) : Deferred :=
  match d.job with
  | .quiesce deadline elapsed => { d with job := .quiesce deadline (elapsed + 1) }
  | .linkOpen | .statsRead _ | .fence _ _ => d

/-- R60, R63: local time and every running elapsed timer go up by one, in every part state; while RESET_N is asserted
local time is held at 0. -/
def tick (s : State) : State :=
  if s.resetHeld then s
  else { onLink Link.tick s with localTime := s.localTime + 1, deferred := s.deferred.map Deferred.tick }

/-! ### The rows -/

/-- HELLO_TIMER (R106). -/
def execHelloTimer (s : State) : Host.Outcome State Fault Refusal := .next (helloTimer s)

/-- OPEN_TIMEOUT (R107). -/
def execOpenTimeout (s : State) : Host.Outcome State Fault Refusal := .next (openTimeout s)

/-- KEEPALIVE (R111). -/
def execKeepalive (s : State) : Host.Outcome State Fault Refusal := .next (keepalive s)

/-- SILENCE_TIMEOUT (R112). -/
def execSilenceTimeout (s : State) : Host.Outcome State Fault Refusal := .next (silenceTimeout s)

/-- PROBE_ATTEMPT_END (R109). -/
def execProbeAttemptEnd (s : State) : Host.Outcome State Fault Refusal := .next (probeAttemptEnd s)

/-- PROBE_TIMER (R130). -/
def execProbeTimer (s : State) : Host.Outcome State Fault Refusal := .next (probeTimer s)

/-- ACK_TIMEOUT (R125). -/
def execAckTimeout (s : State) : Host.Outcome State Fault Refusal := .next (ackTimeout s)

/-- STALENESS_TIMEOUT (R133). -/
def execStalenessTimeout (s : State) : Host.Outcome State Fault Refusal := .next (stalenessTimeout s)

/-- TICK (R60). -/
def execTick (s : State) : Host.Outcome State Fault Refusal := .next (tick s)

end Sys2Proof.Machine
end

