-- ==== Sys2Proof/Machine/Dispatch.lean ====
section
/-! DEFINITION. The meaning of every step: one arm per row of spec/opcode_table.json. -/

namespace Sys2Proof.Machine

/-- The effect of a step on everything but the queue of waiting steps. -/
def exec (i : Instr) (s : State) : Host.Outcome State Fault Refusal :=
  match i with
  | .start => Sys2Proof.Machine.execStart s
  | .stop during late => Sys2Proof.Machine.execStop during s late
  | .reset => Sys2Proof.Machine.execReset s
  | .resetNAssert => Sys2Proof.Machine.execResetNAssert s
  | .resetNRelease => Sys2Proof.Machine.execResetNRelease s
  | .functionReset => Sys2Proof.Machine.execFunctionReset s
  | .setupReadDone block => Sys2Proof.Machine.execSetupReadDone block s
  | .statusBlockInitDone => Sys2Proof.Machine.execStatusBlockInitDone s
  | .stoppingEnd => Sys2Proof.Machine.execStoppingEnd s
  | .busMasterError during late indexed => Sys2Proof.Machine.execBusMasterError s during late indexed
  | .submit word => Sys2Proof.Machine.execSubmit word s
  | .release word => Sys2Proof.Machine.execRelease word s
  | .intCause word => Sys2Proof.Machine.execIntCause word s
  | .intEnable word => Sys2Proof.Machine.execIntEnable word s
  | .registerWrite offset count word => Sys2Proof.Machine.execRegisterWrite offset count word s
  | .unknownCommand tag kind => Sys2Proof.Machine.execUnknownCommand tag kind s
  | .routeSet tag f pause => Sys2Proof.Machine.execRouteSet tag f s pause
  | .routeClear tag f => Sys2Proof.Machine.execRouteClear tag f s
  | .routeSuspend tag source => Sys2Proof.Machine.execRouteSuspend tag source s
  | .routeResume tag source => Sys2Proof.Machine.execRouteResume tag source s
  | .lineInConfig tag f => Sys2Proof.Machine.execLineInConfig tag f s
  | .lineOutConfig tag f => Sys2Proof.Machine.execLineOutConfig tag f s
  | .outputSet tag f => Sys2Proof.Machine.execOutputSet tag f s
  | .schedule tag f => Sys2Proof.Machine.execSchedule tag f s
  | .cancel tag eventTag => Sys2Proof.Machine.execCancel tag eventTag s
  | .refresh tag lines pause => Sys2Proof.Machine.execRefresh tag lines s pause
  | .timeRead tag => Sys2Proof.Machine.execTimeRead tag s
  | .timeSet tag time => Sys2Proof.Machine.execTimeSet tag time s
  | .linkOpen tag f => Sys2Proof.Machine.execLinkOpen tag f s
  | .linkClose tag => Sys2Proof.Machine.execLinkClose tag s
  | .quiesce tag deadline => Sys2Proof.Machine.execQuiesce tag deadline s
  | .openIntake tag => Sys2Proof.Machine.execOpen tag s
  | .statsRead tag f => Sys2Proof.Machine.execStatsRead tag f s
  | .faults tag f => Sys2Proof.Machine.execFaults tag f s
  | .fence tag => Sys2Proof.Machine.execFence tag s
  | .quiesceDeadline => Sys2Proof.Machine.execQuiesceDeadline s
  | .statsItemRead board => Sys2Proof.Machine.execStatsItemRead board s
  | .statsReadDone => Sys2Proof.Machine.execStatsReadDone s
  | .routerTake pause => Sys2Proof.Machine.execRouterTake s pause
  | .holdRelease => Sys2Proof.Machine.execHoldRelease s
  | .handoverTake => Sys2Proof.Machine.execHandoverTake s
  | .applicationRequest line => Sys2Proof.Machine.execApplicationRequest line s
  | .pulseEnd line => Sys2Proof.Machine.execPulseEnd line s
  | .eventRecordTake poster => Sys2Proof.Machine.execEventRecordTake poster s
  | .recordWriteDone target => Sys2Proof.Machine.execRecordWriteDone target s
  | .rawChange line level => Sys2Proof.Machine.execRawChange line level s
  | .filterAccept line => Sys2Proof.Machine.execFilterAccept line s
  | .spacingEnd line => Sys2Proof.Machine.execSpacingEnd line s
  | .faultRaise index => Sys2Proof.Machine.execFaultRaise index s
  | .crcError => Sys2Proof.Machine.execCrcError s
  | .frameMalformed => Sys2Proof.Machine.execFrameMalformed s
  | .rxHello sender seen => Sys2Proof.Machine.execRxHello sender seen s
  | .rxClose sender => Sys2Proof.Machine.execRxClose sender s
  | .rxIdle sender => Sys2Proof.Machine.execRxIdle sender s
  | .rxEvent f => Sys2Proof.Machine.execRxEvent f s
  | .rxAck next => Sys2Proof.Machine.execRxAck next s
  | .rxProbe number t1 => Sys2Proof.Machine.execRxProbe number t1 s
  | .rxEcho number t1 t2 t3 part => Sys2Proof.Machine.execRxEcho number t1 t2 t3 s part
  | .frameTransmit => Sys2Proof.Machine.execFrameTransmit s
  | .frameSent => Sys2Proof.Machine.execFrameSent s
  | .helloTimer => Sys2Proof.Machine.execHelloTimer s
  | .openTimeout => Sys2Proof.Machine.execOpenTimeout s
  | .keepalive => Sys2Proof.Machine.execKeepalive s
  | .silenceTimeout => Sys2Proof.Machine.execSilenceTimeout s
  | .probeAttemptEnd => Sys2Proof.Machine.execProbeAttemptEnd s
  | .probeTimer => Sys2Proof.Machine.execProbeTimer s
  | .ackTimeout => Sys2Proof.Machine.execAckTimeout s
  | .stalenessTimeout => Sys2Proof.Machine.execStalenessTimeout s
  | .tick => Sys2Proof.Machine.execTick s

end Sys2Proof.Machine
end

