-- ==== Sys2Proof/Safety.lean ====
section
/-! DEFINITION. What the spec promises of every state the part can be in, as predicates on one state (every step keeps
each), and the words in which the statements of Sys2Proof/Certificates/Slice0/Obligations.lean are written. -/

namespace Sys2Proof.Machine

/-! ### Capacities (R5, R37, R55, R120) -/

/-- R5, R37, R55, R120: no list outgrows its capacity. -/
structure State.WithinCapacity (s : State) : Prop where
  intake : s.intake.length ≤ Config.intakeCapacity
  hold : s.hold.length ≤ Config.holdCapacity
  tags : s.tags.length ≤ Config.tagCapacity
  window : s.link.window.length ≤ Config.windowCapacity
  queue : s.link.queueDepth ≤ Config.transmitCapacity

/-! ### The Hold Queue and the tag memory (R35, R37, R55) -/

/-- R35: a hold entry carries no UNALIGNED flag and its snapshot is not empty. -/
def HoldEntry.Sound (h : HoldEntry) : Prop :=
  h.event.flags.unaligned = false ∧ (h.outputs ≠ 0 ∨ h.rings ≠ 0)

/-- R37: the Hold Queue stands in non-decreasing order of release time; every entry is sound (R35); no two records of
the tag memory hold the same tag (R55). -/
structure State.HoldOrdered (s : State) : Prop where
  sorted : (s.hold.map HoldEntry.release).Pairwise (· ≤ ·)
  sound : ∀ h ∈ s.hold, h.Sound
  tags : (s.tags.map TagRecord.tag).Nodup

/-! ### Rings and the completion reservation (R143, R148, R158) -/

/-- The records of a ring written and not yet released: producer index less consumer index. -/
def OutRing.published (r : OutRing) : Nat := (r.producer + r.size - r.consumer) % r.size

/-- R143: the slots of the pending writes stand one after another from the producer index. -/
def slotsFrom (size : Nat) : Nat → List RingWrite → Prop
  | _, [] => True
  | next, w :: ws => w.slot = next ∧ slotsFrom size ((next + 1) % size) ws

/-- R143: a ring in service: every index is one of the ring's, and the unconsumed records are those published followed by
the pending writes, never more than N−1. -/
structure OutRing.Sound (r : OutRing) : Prop where
  size : 2 ≤ r.size
  producer : r.producer < r.size
  consumer : r.consumer < r.size
  fill : r.fill < r.size
  slots : slotsFrom r.size r.producer r.writes
  count : r.published + r.writes.length = r.unconsumed

/-- R143: every ring of the geometry that is present is in service, and the command ring's indices are two of its own. -/
structure Geometry.Sound (g : Geometry) : Prop where
  producer : g.cmd.producer < g.cmd.size
  consumer : g.cmd.consumer < g.cmd.size
  compl : g.compl.Sound
  event : ∀ ring : Fin 4, g.event[ring].size = 0 ∨ g.event[ring].Sound

/-- The kinds of the deferred commands in flight. -/
def deferredKinds (s : State) : List DeferredKind := s.deferred.map fun d => d.job.kind

/-- R148: unconsumed completions, deferred commands in flight and a command whose read is outstanding or which is under
execution together are at most the completion ring's size minus one. -/
def Geometry.Reserved (g : Geometry) (s : State) : Prop :=
  g.compl.unconsumed + s.deferred.length + s.cmdRead.toNat + s.executing.isSome.toNat ≤ g.compl.size - 1

/-- R143, R147, R148, R158: the rings are in service whenever the part holds a geometry, the reservation is kept, at most
one command of each deferred kind is in flight, a LINK_OPEN in flight belongs to a call (R171), no record is read while a
command is under execution, no index write is outstanding where the part writes nothing (R136), and each line of a set of
offers that is left is one that makes STATE events (R79). In
HALTED, which posts nothing, nothing is claimed. -/
structure State.RingsSound (s : State) : Prop where
  geometry : s.part ≠ .halted → ∀ g, s.geom = some g → g.Sound ∧ g.Reserved s
  held : s.part = .running ∨ s.part = .stopping → s.geom ≠ none
  starting : ∀ g, s.starting = some (.writingStatus g) → g.Sound ∧ g.compl.unconsumed = 0
  nodup : (deferredKinds s).Nodup
  linkOpen : s.part ≠ .halted → DeferredKind.linkOpen ∈ deferredKinds s →
    s.link.session = .calling ∨ s.link.session = .aligning
  idle : s.part ≠ .running → s.part ≠ .halted → s.deferred = []
  reading : s.cmdRead = true → s.part = .running ∧ s.executing = none
  executing : s.executing ≠ none → s.part = .running ∨ s.part = .stopping ∨ s.part = .halted
  indices : s.indexWrites ≠ [] → s.part = .running ∨ s.part = .stopping
  offering : ∀ w, s.executing = some w → ∀ n ∈ w.lines, s.inputs[n].config.mode ≠ .off

/-! ### Outside RUNNING (R5, R37, R72, R96, R103) -/

/-- R72, R77: a line has a candidate or an open window only when it filters, in RUNNING with a mode other than OFF. -/
def InputLine.Watched (part : PartState) (l : InputLine) : Prop :=
  l.candidate ≠ none ∨ l.spacingEnd ≠ none ∨ l.suppressed = true → part = .running ∧ l.config.mode ≠ .off

/-- R5, R12, R37, R53, R72, R79, R96, R103: outside RUNNING the intake is CLOSED and empty, nothing is held or under
decision, no announce is under way, no line watches an edge, no pulse is active and the session is CLOSED. -/
structure State.QuietOutsideRunning (s : State) : Prop where
  intake : s.part ≠ .running → s.intakeOpen = false ∧ s.intake = [] ∧ s.hold = []
  decision : s.part ≠ .running → s.deciding = none ∧ s.handover = none ∧ s.announcing = []
  delivery : s.part ≠ .running → s.part ≠ .stopping → s.delivery = none
  inputs : ∀ n : Fin 16, s.inputs[n].Watched s.part
  outputs : s.part ≠ .running → ∀ n : Fin 16, s.outputs[n].pulse = none
  session : s.part ≠ .running → s.link.session = .closed

/-! ### The span link (R117, R120, R124, R129) -/

/-- R120: the sequence numbers of the window are consecutive modulo 256 and end just before the next sequence. -/
def Link.sequenced (l : Link) : Prop :=
  l.window.map WindowFrame.seq
    = (List.range l.window.length).map fun i => l.nextSeq - BitVec.ofNat 8 (l.window.length - i)

/-- R106, R117, R120, R124, R129: what holds of the link context between steps. -/
structure Link.Sound (l : Link) : Prop where
  sequenced : l.sequenced
  fresh : l.fresh = true → l.session = .up
  outstanding : l.outstanding ≠ none → l.session = .aligning ∨ l.session = .up
  probes : l.probes ≠ [] → l.session = .aligning ∨ l.session = .up
  queue : l.session ≠ .up → l.window = [] ∧ l.waiting = []
  waiting : l.waiting ≠ [] → l.window.length = Config.windowCapacity
  ackTimer : l.ackTimer ≠ none ↔ l.window ≠ []
  silence : l.silenceTimer ≠ none ↔ l.session = .aligning ∨ l.session = .up
  openTimer : l.openTimer ≠ none ↔ l.session = .calling
  hello : l.helloTimer ≠ none ↔ l.session = .calling ∨ l.session = .aligning
  own : l.session.inCall = true → l.own ≠ 0

/-! ### Deferred commands that are ready (R174, R179) -/

/-- R174, R179: no QUIESCE or FENCE stays in flight with its condition holding. -/
def State.Settled (s : State) : Prop := needsSettle s = false

/-- The promises above, together. -/
structure State.Sound (s : State) : Prop where
  capacity : s.WithinCapacity
  ordered : s.HoldOrdered
  rings : s.RingsSound
  quiet : s.QuietOutsideRunning
  link : s.link.Sound
  memory : Memory.wf s.hostMem
  settled : s.Settled

/-! ## The words of the statements -/

/-! ### Completions (R149, R157 to R159, R174, R179) -/

/-- R149: records assigned to slots one after another. -/
def OutRing.assignAll (records : List HostRecord) (r : OutRing) : OutRing :=
  records.foldl (fun r x => r.assign x) r

/-- R149: completion records handed to the Ring Engine in this order. -/
def Geometry.complete (records : List HostRecord) (g : Geometry) : Geometry :=
  { g with compl := g.compl.assignAll records }

/-- The command tag a completion record echoes (R159); 0 for a record of another kind. -/
def HostRecord.commandTag : HostRecord → Word
  | .completion _ tag _ _ _ _ => tag
  | .event _ _ _ _ _ _ _ _ => 0
  | .loss _ => 0
  | .fault _ _ _ => 0
  | .link _ _ _ _ _ => 0

/-- R174: the completion due of the QUIESCE in flight in `u`, when the intake is empty and the Hold Queue reports release
quiet, and the deferred commands it leaves in flight. -/
def dueQuiesce (u : State) : List HostRecord × List Deferred :=
  match findDeferred .quiesce u with
  | some ⟨tag, .quiesce _ elapsed⟩ =>
      if u.intake = [] ∧ (u.deciding = none ∧ u.handover = none) ∧ u.hold = [] ∧ u.delivery = none then
        ([.completion 0x0F tag .ok (BitVec.ofNat 32 elapsed) 0 0], leaveDeferred .quiesce u.deferred)
      else ([], u.deferred)
  | _ => ([], u.deferred)

/-- R179: the completion due of a FENCE in flight among `ds` that waits for nothing more, and the deferred commands it
leaves in flight. -/
def dueFence (ds : List Deferred) : List HostRecord × List Deferred :=
  match ds.find? (fun d => d.job.kind == .fence) with
  | some ⟨tag, .fence recorded []⟩ =>
      ([.completion 0x13 tag .ok (BitVec.ofNat 32 recorded) 0 0], leaveDeferred .fence ds)
  | _ => ([], ds)

/-- R174, R179: the completions due in `u`, in order (the QUIESCE, then the FENCE that may have waited for it), and the
deferred commands they leave in flight. -/
def State.due (u : State) : List HostRecord × List Deferred :=
  ((dueQuiesce u).1 ++ (dueFence (dueQuiesce u).2).1, (dueFence (dueQuiesce u).2).2)

/-- R174, R179: the completions due in `u` are handed over, while the part posts records (R136). -/
def State.settled (u : State) : State :=
  if u.part = .running ∨ u.part = .stopping then
    { u with geom := u.geom.map (Geometry.complete u.due.1), deferred := u.due.2 }
  else u

/-- R147: the read of a command record is outstanding in RUNNING, under the ring geometry `g`, with no command under
execution: a command may be taken. -/
structure Ready (s : State) (g : Geometry) : Prop where
  running : s.part = .running
  reading : s.cmdRead = true
  geom : s.geom = some g
  free : s.executing = none

/-- R146 to R149: what taking a command from the geometry `g` does beside its own effect, which left `u`: the consumer
index moves on and its write to the status block is made, commands_taken is incremented, the records are handed over in
order, and the next read is issued when another command waits and the free completion slots exceed the deferred
commands. -/
def State.afterTake (g : Geometry) (records : List HostRecord) (u : State) : State :=
  let next := (g.cmd.consumer + 1) % g.cmd.size
  let g1 := ({ g with cmd := { g.cmd with consumer := next } } : Geometry).complete records
  { u with
    geom := some g1
    ringCounters := { u.ringCounters with commandsTaken := bump u.ringCounters.commandsTaken }
    indexWrites := u.indexWrites ++ [⟨.command, next⟩]
    cmdRead := decide (u.deferred.length < g1.compl.free) && next != g.cmd.producer }

/-- R157, R159: a command has been taken and its execution, which left `u`, ends with the completion `record`, behind
those it has itself brought about (`before`). Deferred commands that have become due complete after it or before it: the
choice is free (log entry 9). -/
def State.commandDone (g : Geometry) (before : List HostRecord) (record : HostRecord) (u : State) : State :=
  if u.due.1 = [] then u.afterTake g (before ++ [record])
  else State.afterTake g
    (before ++ if Config.deferredFirst u.choices then u.due.1 ++ [record] else record :: u.due.1)
    { u with deferred := u.due.2, choices := u.choices + 1 }

/-- R158: a deferred command has been taken and started, its execution leaving `u` with the command in flight; what is
due completes in the same execution. -/
def State.commandJoined (g : Geometry) (u : State) : State :=
  State.afterTake g u.due.1 { u with deferred := u.due.2 }

/-! ### Sets of offers (R8, R80, R161, R167) -/

/-- R161, R167: the completion record of a set of offers at its end. -/
def OfferSet.record (w : OfferSet) : HostRecord :=
  match w.command with
  | .refresh _ => .completion 0x0A w.tag (if w.closed then .closed else .ok)
      (BitVec.ofNat 32 w.made) (BitVec.ofNat 32 w.refused) 0
  | _ => .completion 0x01 w.tag .ok (BitVec.ofNat 32 w.made) (BitVec.ofNat 32 w.refused) (if w.closed then 1 else 0)

/-- R8, R147, R157: the set of offers under execution has come to its end in `u`, whose geometry is `g`: its completion
`record` is handed over with what is due (log entry 9 for their order), and in RUNNING the read of the next command is
issued when one waits and the reservation allows it. -/
def State.offersDone (g : Geometry) (record : HostRecord) (u : State) : State :=
  let g1 := g.complete
    (if u.due.1 = [] then [record]
     else if Config.deferredFirst u.choices then u.due.1 ++ [record] else record :: u.due.1)
  { u with
    executing := none
    geom := some g1
    deferred := u.due.2
    choices := if u.due.1 = [] then u.choices else u.choices + 1
    cmdRead := u.cmdRead || (u.part == .running && g.cmd.consumer != g.cmd.producer
      && decide (u.due.2.length < g1.compl.free)) }

/-! ### The range checks of the commands (R156, R197 and each kind's rule) -/

/-- Every parameter field the kind reads is in range. -/
def FieldsInRange (s : State) : Command → Prop
  | .unknown _ => True
  | .routeSet f =>
      f.source.toNat ≤ 255 ∧ (f.state = 1 ∨ f.state = 2) ∧ f.forward.toNat ≤ 1 ∧ f.outputs.toNat < 2 ^ 16
        ∧ f.rings.toNat < 2 ^ 4 ∧ (∀ ring : Fin 4, f.rings.getLsbD ring.val = true → ringPresent s ring = true)
        ∧ f.kinds.toNat < 2 ^ 5 ∧ f.late.toNat ≤ 1 ∧ f.refresh.toNat ≤ 1 ∧ f.latency.toNat < 2 ^ 24
        ∧ f.width.toNat < 2 ^ 16
  | .routeClear f => f.source.toNat ≤ 255 ∧ f.purge.toNat ≤ 1
  | .routeSuspend source => source.toNat ≤ 255
  | .routeResume source => source.toNat ≤ 255
  | .lineInConfig f =>
      f.line.toNat ≤ 15 ∧ f.mode.toNat ≤ 3 ∧ f.announce.toNat ≤ 1 ∧ f.filter.toNat ≤ 4095
        ∧ f.spacing.toNat ≤ 1048575 ∧ f.source.toNat ≤ 255
  | .lineOutConfig f =>
      f.line.toNat ≤ 15 ∧ f.mode.toNat ≤ 2 ∧ f.drive.toNat ≤ 1 ∧ f.polarity.toNat ≤ 1 ∧ f.resting.toNat ≤ 1
  | .outputSet f =>
      f.line.toNat ≤ 15
        ∧ (f.action = 0 ∧ f.level.toNat ≤ 1 ∨ f.action = 1 ∧ 1 ≤ f.width.toNat ∧ f.width.toNat ≤ 65535)
  | .schedule f =>
      f.source.toNat ≤ 255 ∧ f.kind.toNat ≤ 4 ∧ (f.kind = 2 → f.param.toNat ≤ 1)
        ∧ (f.kind = 3 → 1 ≤ f.param.toNat ∧ f.param.toNat ≤ 65535) ∧ (f.kind = 4 → f.param.toNat ≤ 65535)
        ∧ f.stamp.toNat < 2 ^ 63
  | .cancel _ => True
  | .refresh lines => lines.toNat < 2 ^ 16
  | .timeRead => True
  | .timeSet time => time.toNat < 2 ^ 63
  | .linkOpen f =>
      1 ≤ f.openTimeout.toNat ∧ 1 ≤ f.ackTimeout.toNat ∧ f.ackTimeout.toNat ≤ 1000 ∧ 1 ≤ f.retryLimit.toNat
        ∧ f.retryLimit.toNat ≤ 7 ∧ 10 ≤ f.idleTimeout.toNat ∧ 1 ≤ f.alignInterval.toNat
        ∧ f.alignInterval.toNat ≤ 1000 ∧ 1 ≤ f.maxDelay.toNat
  | .linkClose => True
  | .quiesce deadline => 1 ≤ deadline.toNat
  | .openIntake => True
  | .statsRead f =>
      1 ≤ f.sections.toNat ∧ f.sections.toNat < 2 ^ 6 ∧ f.clear.toNat ≤ 1 ∧ f.address.toNat % 64 = 0
        ∧ (if f.sections.getLsbD 0 then 12304 else 0) + (if f.sections.getLsbD 1 then 1040 else 0)
            + (if f.sections.getLsbD 2 then 784 else 0) + (if f.sections.getLsbD 3 then 144 else 0)
            + (if f.sections.getLsbD 4 then 256 else 0) + (if f.sections.getLsbD 5 then 272 else 0)
          ≤ f.length.toNat
        ∧ f.address.toNat + f.length.toNat ≤ 2 ^ 64
  | .faults f => f.clear.toNat < 2 ^ 9 ∧ f.mask.toNat < 2 ^ 9 ∧ f.maskWrite.toNat ≤ 1 ∧ f.query.toNat ≤ 8
  | .fence => True

/-! ### Offers of STATE events (R6, R8, R79 to R81) -/

/-- R6: of lines that offer one event each in this order, those whose offer the intake accepts. -/
def State.acceptedLines (lines : List (Fin 16)) (s : State) : List (Fin 16) :=
  if s.intakeOpen then lines.take (64 - s.intake.length) else []

/-- R79: each of these lines has offered its STATE event and had it accepted: the events stand at the end of the intake in
this order, and the last reported level of each line is the level its event states. -/
def State.stateEventsMade (lines : List (Fin 16)) (s : State) : State :=
  { s with
    intake := s.intake ++ lines.map fun n =>
      { source := s.inputs[n].config.source, kind := .state s.inputs[n].accepted, capture := s.localTime
        origin := .line n, flags := { coalesced := false, refresh := true, unaligned := false } }
    inputs := Vector.ofFn fun n =>
      if n ∈ lines then { s.inputs[n] with reported := s.inputs[n].accepted } else s.inputs[n] }

/-! ### The Router's decision (R24 to R28, R38, R59) -/

/-- R24 to R28, R38, R59: what becomes of a routed event `e` under the reading `c` of its entry in the state `u` that the
link forward left; `answers` holds of the state the step answers. With no local destination the decision ends. Else, with
R = capture time + L: an UNALIGNED event (R = now), and one with R reached and L = 0, is handed to the Release Unit; one
with R reached and L > 0 raises DEADLINE and is handed over late or discarded, as the policy says, and counted; one with R
in the future enters the Hold Queue behind every entry of an R no later, or, with 128 entries held, is dropped and
counted, and HOLD_FULL is raised. -/
def LocalOutcome (c : RouteConfig) (e : Event) (u : State) (answers : State → Prop) : Prop :=
  let entry := u.routes[e.source.toNat]'e.source.isLt
  let counted := fun f : RouteCounters → RouteCounters =>
    u.routes.set e.source.toNat { entry with counters := f entry.counters } e.source.isLt
  let rings := c.rings &&& presentRings u
  let due := e.capture + c.latency.toNat
  let handed := fun (release : Nat) (late : Bool) => (some ⟨e, c.outputs, rings, release, late⟩ : Option Handover)
  let context : Word := e.source.setWidth 32
  (c.outputs = 0 ∧ rings = 0 → answers u.settled)
  ∧ (¬ (c.outputs = 0 ∧ rings = 0) →
    (e.flags.unaligned = true → answers (State.settled { u with handover := handed u.localTime false }))
    ∧ (e.flags.unaligned = false → due ≤ u.localTime → c.latency = 0 →
        answers (State.settled { u with handover := handed due false }))
    ∧ (e.flags.unaligned = false → due ≤ u.localTime → c.latency ≠ 0 → c.late = .deliverLate →
        answers (State.settled { u with
          handover := handed due true, raises := u.raises ++ [⟨.deadline, context⟩]
          routes := counted fun k => { k with lateDelivered := bump k.lateDelivered } }))
    ∧ (e.flags.unaligned = false → due ≤ u.localTime → c.latency ≠ 0 → c.late = .discard →
        answers (State.settled { u with
          raises := u.raises ++ [⟨.deadline, context⟩]
          routes := counted fun k => { k with lateDiscarded := bump k.lateDiscarded } }))
    ∧ (e.flags.unaligned = false → u.localTime < due → u.hold.length < 128 →
        (u.hold.map HoldEntry.release).Pairwise (· ≤ ·) →
        answers (State.settled { u with
          hold := u.hold.filter (fun h => h.release ≤ due) ++ [⟨due, e, c.outputs, rings⟩]
            ++ u.hold.filter (fun h => due < h.release)
          holdCounters := { u.holdCounters with
            inserted := bump u.holdCounters.inserted, peak := max u.holdCounters.peak (u.hold.length + 1) } }))
    ∧ (e.flags.unaligned = false → u.localTime < due → 128 ≤ u.hold.length →
        answers (State.settled { u with
          raises := u.raises ++ [⟨.holdFull, context⟩]
          routes := counted fun k => { k with holdDropped := bump k.holdDropped } })))

/-! ### The span link (R100, R104, R117, R118) -/

/-- R100, R104: an intact frame has arrived: frames_received counts it, and in ALIGNING and UP the silence timer
restarts. -/
def State.frameHeard (s : State) : State :=
  { s with link := { s.link with
      counters := { s.link.counters with framesReceived := bump s.link.counters.framesReceived }
      silenceTimer :=
        if s.link.session = .aligning ∨ s.link.session = .up then some 0 else s.link.silenceTimer } }

/-- R114 to R117: the link at a move to FAILED or CLOSED: from CALLING, ALIGNING and UP everything waiting, queued,
outstanding and timed is discarded, and the discarded EVENT frames are counted in tx_discarded; a CLOSE with the own
session number is made when `close` says so. -/
def Link.ended (session : Session) (reason : Reason) (close : Bool) (l : Link) : Link :=
  if l.session = .calling ∨ l.session = .aligning ∨ l.session = .up then
    { l with
      session := session, reason := reason
      closeWait := if close then some l.own else none
      echoes := [], ackWait := none, probes := [], hellos := [], idles := [], window := [], waiting := []
      counters := { l.counters with
        txDiscarded := bumpBy (l.window.length + l.waiting.length) l.counters.txDiscarded }
      expected := 0, outstanding := none, fresh := false, attempts := 0
      openTimer := none, helloTimer := none, keepTimer := none, silenceTimer := none, attemptTimer := none
      ackTimer := none, probeTimer := none, staleTimer := none }
  else
    { l with session := session, reason := reason, closeWait := if close then some l.own else l.closeWait }

/-- R118, R171: the completion of the LINK_OPEN in flight in `s`, if any, at a transition that leaves the link at `l`. -/
def linkOpenRecord (status : Status) (l : Link) (s : State) : List HostRecord :=
  match findDeferred .linkOpen s with
  | none => []
  | some d =>
      [.completion 0x0D d.tag status (BitVec.ofNat 32 l.reason.code)
        (BitVec.ofNat 32 (l.own.toNat + 65536 * l.recorded.toNat)) 0]

/-- R118, R171: what a transition of the session that leaves the link at `l` does beside it: a LINK notice is handed over
(with a notice ring), and the LINK_OPEN in flight completes with `status`. -/
def State.transition (status : Status) (l : Link) (s : State) : State :=
  { s with
    link := l
    linkNotices :=
      if (noticeRing s).isSome then s.linkNotices ++ [.link l.session l.reason l.own l.recorded s.localTime]
      else s.linkNotices
    geom := s.geom.map (Geometry.complete (linkOpenRecord status l s))
    deferred := if inFlight .linkOpen s then leaveDeferred .linkOpen s.deferred else s.deferred }

/-- R117, R118: the session enters FAILED: LINK_LOST is raised with the reason code; a LINK_OPEN in flight completes
TIMEOUT for the reason TIMEOUT and ALIGN_FAILED for every other. -/
def State.sessionFailed (reason : Reason) (s : State) : State :=
  State.transition (if reason = .timeout then .timeout else .alignFailed) (s.link.ended .failed reason false)
    { s with raises := s.raises ++ [⟨.linkLost, BitVec.ofNat 32 reason.code⟩] }

/-! ### STOP (R12, R53, R83, R96, R116, R140) -/

/-- R9, R11: the events under the Router's decision: one from the take to the end of the decision. -/
def State.decisions (s : State) : Nat := if s.deciding = none ∧ s.handover = none then 0 else 1

/-- R140, R171, R174, R177, R179: the ABORTED completion of a deferred command in flight at a STOP in `s`. -/
def abortedRecord (s : State) (d : Deferred) : HostRecord :=
  match d.job with
  | .linkOpen => .completion 0x0D d.tag .aborted 9
      (BitVec.ofNat 32 (s.link.own.toNat + 65536 * s.link.recorded.toNat)) 0
  | .quiesce _ elapsed => .completion 0x0F d.tag .aborted (BitVec.ofNat 32 elapsed)
      (BitVec.ofNat 32 (s.intake.length + s.decisions)) (BitVec.ofNat 32 s.hold.length)
  | .statsRead j => .completion 0x11 d.tag .aborted (BitVec.ofNat 32 j.written) 0 0
  | .fence recorded _ => .completion 0x13 d.tag .aborted (BitVec.ofNat 32 recorded) 0 0

/-- R71: a line with its capture state reset. -/
def InputLine.stable (l : InputLine) : InputLine :=
  { l with accepted := l.raw, reported := l.raw, candidate := none, spacingEnd := none, suppressed := false }

/-- The part at entry to STOPPING, but for the completions handed over. -/
def State.stopped (s : State) : State :=
  { s with
    part := .stopping
    cmdRead := false
    deferred := []
    tags := []
    intake := [], intakeOpen := false, announcing := [], deciding := none, handover := none, hold := []
    discardedAtStop := bumpBy s.hold.length (bumpBy (s.intake.length + s.decisions) s.discardedAtStop)
    link := if s.link.session = .closed then s.link else s.link.ended .closed .stop true
    linkNotices :=
      if s.link.session ≠ .closed ∧ (noticeRing s).isSome then
        s.linkNotices ++ [.link .closed .stop s.link.own s.link.recorded s.localTime]
      else s.linkNotices
    inputs := Vector.ofFn fun n => s.inputs[n].stable
    outputs := Vector.ofFn fun n => { s.outputs[n] with pulse := none } }

/-! ### Host memory (R139, R143, R146, R177) -/

/-- The bytes of host memory that the part may write in the state: the status block and the slots of records assigned and
not yet written, of the geometry it holds or is about to hold, the buffer writes a STATS_READ has issued, and the writes
left on the bus (R142). -/
def State.MayWrite (s : State) (a : Nat) : Prop :=
  (∃ g : Geometry, (s.geom = some g ∨ s.starting = some (.writingStatus g)) ∧
    (g.status.toNat ≤ a ∧ a < g.status.toNat + 64
      ∨ (∃ w ∈ g.compl.writes, g.compl.slotAddress w.slot ≤ a ∧ a < g.compl.slotAddress w.slot + 32)
      ∨ ∃ ring : Fin 4, ∃ w ∈ g.event[ring].writes,
          g.event[ring].slotAddress w.slot ≤ a ∧ a < g.event[ring].slotAddress w.slot + 32))
    ∨ ∃ w ∈ s.bufWrites ++ s.issued, w.address ≤ a ∧ a < w.address + w.bytes.length

/-! ### STATS_READ (R188) -/

/-- R188, R189: the counter an item is, if it is one. -/
def StatsItem.counter (s : State) : StatsItem → Option Counter
  | .routeCounter e k => some (s.routes[e].counters.get k)
  | .inputCounter n k => some (s.inputs[n].counters.get k)
  | .outputCounter n k => some (s.outputs[n].counters.get k)
  | .linkCounter k => some (s.link.counters.get k)
  | .ringsCounter k => some (s.ringCounters.get k)
  | .globalCounter k => some (globalCount s k)
  | .routeGroup _ | .inputGroup _ | .outputGroup _ => none
  | .linkSession | .linkTransmit | .linkReceive | .linkAlignment => none
  | .ringsSelector | .ringsDeferred | .ringGroup _ => none
  | .holdDepth | .holdPeak | .faultPin | .faultClass _ => none

/-- R177: buffer writes that fill `length` bytes from `address`, one after another. -/
def tiles : Nat → Nat → List BufferWrite → Prop
  | _, length, [] => length = 0
  | address, length, w :: ws =>
      w.address = address ∧ w.bytes.length ≤ length ∧ tiles (address + w.bytes.length) (length - w.bytes.length) ws

/-! ### What may change settings (R14, R70, R85) -/

/-- The commands that write the Route Table's entries: state and fields. -/
def Command.setsRoutes : Command → Bool
  | .routeSet _ | .routeClear _ | .routeSuspend _ | .routeResume _ => true
  | .unknown _ | .lineInConfig _ | .lineOutConfig _ | .outputSet _ | .schedule _ | .cancel _ | .refresh _ | .timeRead
  | .timeSet _ | .linkOpen _ | .linkClose | .quiesce _ | .openIntake | .statsRead _ | .faults _ | .fence => false

/-- The command that writes the settings of an input line. -/
def Command.setsInputs : Command → Bool
  | .lineInConfig _ => true
  | .routeSet _ | .routeClear _ | .routeSuspend _ | .routeResume _ | .unknown _ | .lineOutConfig _ | .outputSet _
  | .schedule _ | .cancel _ | .refresh _ | .timeRead | .timeSet _ | .linkOpen _ | .linkClose | .quiesce _
  | .openIntake | .statsRead _ | .faults _ | .fence => false

/-- The command that writes mode, drive and polarity of an output line. -/
def Command.setsOutputs : Command → Bool
  | .lineOutConfig _ => true
  | .routeSet _ | .routeClear _ | .routeSuspend _ | .routeResume _ | .unknown _ | .lineInConfig _ | .outputSet _
  | .schedule _ | .cancel _ | .refresh _ | .timeRead | .timeSet _ | .linkOpen _ | .linkClose | .quiesce _
  | .openIntake | .statsRead _ | .faults _ | .fence => false

/-- The step takes a command of this sort from the command ring, alone or with the entry to STOPPING or HALTED inside its
execution (R140, R160). -/
def Takes (sort : Command → Bool) (i : Instr) : Prop :=
  ∃ (c : Command) (tag : Word), sort c = true ∧
    ((∃ pause, i = takeUpTo pause tag c)
      ∨ ∃ requests late, i = .stop (some ⟨tag, c, requests⟩) late
          ∨ ∃ indexed, i = .busMasterError (some ⟨tag, c, requests⟩) late indexed)

/-- R137, R142: the step is a device reset. -/
def Resets (i : Instr) : Prop :=
  i = .reset ∨ i = .functionReset ∨ i = .resetNAssert
    ∨ ∃ word : Word, i = .registerWrite 0x04 4 word ∧ word.getLsbD 2 = true

end Sys2Proof.Machine
end

