-- ==== Sys2Proof/WellFormed.lean ====
section
/-! DEFINITION. Which terms of `Instr` stand for a step of their row: the checks the spec makes on which row a
register write, a command record or a frame belongs to. -/

namespace Sys2Proof

/-- R156: a kind byte that is one of the nineteen command codes (13.2: 01h to 13h). -/
def knownKind (kind : Byte) : Bool :=
  decide (1 ≤ kind.toNat ∧ kind.toNat ≤ 19)

/-- 13.5: the offset of a register whose whole-word write is a row of its own (CONTROL, SUBMIT, RELEASE, INT_CAUSE,
INT_ENABLE). -/
def ownRowOffset (offset : Nat) : Bool :=
  offset == 0x04 || offset == 0x14 || offset == 0x18 || offset == 0x1C || offset == 0x20

/-- A well-formed step. An UNKNOWN_COMMAND has an unknown kind (R156), also when the part enters STOPPING or HALTED
inside its execution. A REGISTER_WRITE has 1 to 4 bytes (R199 says nothing of more: log entry 37) and is no whole-word
write of a register with a row of its own (R199). A HELLO, CLOSE or IDLE has a session field that is not 0: with 0 the
frame is malformed (R101) and its row is FRAME_MALFORMED. -/
def WellFormed : Instr → Bool
  | .unknownCommand _ kind => !knownKind kind
  | .stop (some ⟨_, .unknown kind, _⟩) _ => !knownKind kind
  | .busMasterError (some ⟨_, .unknown kind, _⟩) _ _ => !knownKind kind
  | .registerWrite offset count _ =>
      decide (1 ≤ count ∧ count ≤ 4) && !(count == 4 && ownRowOffset offset)
  | .rxHello sender _ => sender != 0
  | .rxClose sender => sender != 0
  | .rxIdle sender => sender != 0
  | .start | .stop none _ | .stop (some _) _ | .reset | .resetNAssert | .resetNRelease | .functionReset
  | .setupReadDone _ | .statusBlockInitDone | .stoppingEnd | .busMasterError none _ _ | .busMasterError (some _) _ _
  | .submit _ | .release _ | .intCause _ | .intEnable _
  | .routeSet _ _ _ | .routeClear _ _ | .routeSuspend _ _ | .routeResume _ _
  | .lineInConfig _ _ | .lineOutConfig _ _ | .outputSet _ _ | .schedule _ _ | .cancel _ _ | .refresh _ _ _
  | .timeRead _ | .timeSet _ _ | .linkOpen _ _ | .linkClose _ | .quiesce _ _ | .openIntake _
  | .statsRead _ _ | .faults _ _ | .fence _
  | .quiesceDeadline | .statsItemRead _ | .statsReadDone
  | .routerTake _ | .holdRelease | .handoverTake | .applicationRequest _ | .pulseEnd _
  | .eventRecordTake _ | .recordWriteDone _ | .rawChange _ _ | .filterAccept _ | .spacingEnd _ | .faultRaise _
  | .crcError | .frameMalformed | .rxEvent _ | .rxAck _ | .rxProbe _ _ | .rxEcho _ _ _ _ _
  | .frameTransmit | .frameSent | .helloTimer | .openTimeout | .keepalive | .silenceTimeout
  | .probeAttemptEnd | .probeTimer | .ackTimeout | .stalenessTimeout | .tick => true

end Sys2Proof
end

