-- ==== Sys2Proof/Certificates/Slice0/Obligations.lean ====
section
/-! DEFINITION. The statements for the provers, in the words of Sys2Proof/Safety.lean. A statement that gives the whole state
after a step (`exec i s = .next …`) says what the step changes and that it changes nothing else. -/

open Sys2Proof Sys2Proof.Machine

/-! ### The machine as a whole -/

/-- The step at the front of the queue is taken and has its effect with the rest of the queue; on an empty queue the
block idles (the model's queue: log entries 1 and 26). -/
def Obligations.StepRunsFrontCommand : Prop :=
  (∀ (c : Instr) (rest : List Instr) (s : State), step { s with pending := c :: rest } = exec c { s with pending := rest })
    ∧ ∀ s : State, s.pending = [] → step s = .next s

/-- Every step answers a next state and leaves the queue of waiting steps alone (the spec names no event at which the
part stops; log entry 1). -/
def Obligations.EveryStepAnswersAndKeepsQueue : Prop :=
  ∀ (c : Instr) (s : State), ∃ t : State, exec c s = .next t ∧ t.pending = s.pending

/-- The state right after a device reset is sound. -/
def Obligations.ResetStateIsSound : Prop :=
  State.reset.Sound

/-- R5, R37, R55, R120: a step outgrows no capacity. R35, R37, R55: a step keeps the Hold Queue in order of release
time, its entries sound, and the tags of the tag memory distinct. -/
def Obligations.StepKeepsCapacitiesAndOrder : Prop :=
  (∀ s t : State, s.WithinCapacity → step s = .next t → t.WithinCapacity)
  ∧ (∀ s t : State, s.HoldOrdered → step s = .next t → t.HoldOrdered)

/-- R143, R148, R158: a step from a sound state keeps the rings in service and the completion reservation. -/
def Obligations.StepKeepsRingsAndReservation : Prop :=
  ∀ s t : State, s.Sound → step s = .next t → t.RingsSound

/-- R5, R12, R37, R53, R72, R96, R103: a step keeps the part quiet outside RUNNING. -/
def Obligations.StepKeepsQuietOutsideRunning : Prop :=
  ∀ s t : State, s.QuietOutsideRunning → step s = .next t → t.QuietOutsideRunning

/-- R106, R117, R120, R124, R129: a step from a sound state keeps the link context sound. -/
def Obligations.StepKeepsLinkContext : Prop :=
  ∀ s t : State, s.Sound → step s = .next t → t.link.Sound

/-- R174, R179: after a step from a sound state no QUIESCE and no FENCE stays in flight with its condition holding. -/
def Obligations.StepLeavesNothingDue : Prop :=
  ∀ s t : State, s.Sound → step s = .next t → t.Settled

/-- R139, R143, R146, R177: host memory keeps its canonical form, and a step changes a byte of it only within the
status block, the slot of a record assigned and not yet written, or a STATS_READ buffer write issued. -/
def Obligations.StepWritesOnlyOwnedHostMemory : Prop :=
  ∀ s t : State, Memory.wf s.hostMem → step s = .next t →
    Memory.wf t.hostMem
      ∧ ∀ a : Nat, Memory.read t.hostMem a ≠ Memory.read s.hostMem a → s.MayWrite a

/-- R60, R65: local time changes by one at a TICK, to the time named at an accepted TIME_SET (in range, with the Hold
Queue empty at its execution; a STOP inside the execution empties it, log entry 10), to 0 at a device reset, and by no
other step. -/
def Obligations.LocalTimeChangesOnlyByTickSetReset : Prop :=
  ∀ (i : Instr) (s t : State), exec i s = .next t → t.localTime ≠ s.localTime →
    (i = .tick ∧ t.localTime = s.localTime + 1)
    ∨ (Resets i ∧ t.localTime = 0)
    ∨ ∃ (time : Quad) (tag : Word), s.part = .running ∧ time.toNat < 2 ^ 63 ∧ t.localTime = time.toNat
        ∧ (((i = .timeSet tag time ∨ ∃ n late, i = .stop (some ⟨tag, .timeSet time, n⟩) late
              ∨ ∃ indexed, i = .busMasterError (some ⟨tag, .timeSet time, n⟩) late indexed) ∧ s.hold = [])
          ∨ ∃ late, i = .stop (some ⟨tag, .timeSet time, 0⟩) late)

/-- R14, R31 to R34, R70, R82, R85, R93: the state and fields of route entries, the settings of input lines, and mode,
drive and polarity of output lines change only by their commands and at a device reset. -/
def Obligations.SettingsChangeOnlyByTheirCommands : Prop :=
  ∀ (c : Instr) (s t : State), exec c s = .next t → ¬ Resets c →
    (¬ Takes Command.setsRoutes c → ∀ e : Fin 256,
      t.routes[e].state = s.routes[e].state ∧ t.routes[e].config = s.routes[e].config)
    ∧ (¬ Takes Command.setsInputs c → ∀ n : Fin 16, t.inputs[n].config = s.inputs[n].config)
    ∧ (¬ Takes Command.setsOutputs c → ∀ n : Fin 16, t.outputs[n].mode = s.outputs[n].mode
        ∧ t.outputs[n].drive = s.outputs[n].drive ∧ t.outputs[n].polarity = s.outputs[n].polarity)

/-- R160, R8: the step that takes a command in RUNNING, with or without a STOP inside its execution (log entry 10),
and the step that goes on with a set of offers: the tags of the completions handed over, of the deferred commands in
flight and of the command under execution after it are those of the deferred commands and of the command under
execution before it and of the command taken, each as often. So the command taken has its completion handed over in
that step, or is in flight or under execution after it, and no other command gets or loses one. -/
def Obligations.CommandTakenIsCompletedOrHeld : Prop :=
  (∀ (s t : State) (g : Geometry) (tag : Word) (c : Command) (i : Instr), Ready s g → (deferredKinds s).Nodup →
     WellFormed (takeOf tag c) = true →
     ((∃ pause, i = takeUpTo pause tag c) ∨ ∃ requests late, i = .stop (some ⟨tag, c, requests⟩) late) →
     exec i s = .next t →
     ∃ records : List HostRecord,
       t.geom = some (({ g with cmd := { g.cmd with consumer := (g.cmd.consumer + 1) % g.cmd.size } } :
         Geometry).complete records)
       ∧ (records.map HostRecord.commandTag ++ t.deferred.map Deferred.tag ++ t.executing.toList.map OfferSet.tag).Perm
           (s.deferred.map Deferred.tag ++ [tag]))
  ∧ (∀ (s t : State) (g : Geometry) (w : OfferSet) (pause : Option Nat), s.executing = some w → s.cmdRead = false →
       s.geom = some g → (deferredKinds s).Nodup → exec (takeUpTo pause w.tag w.command) s = .next t →
       ∃ records : List HostRecord, t.geom = some (g.complete records)
         ∧ (records.map HostRecord.commandTag ++ t.deferred.map Deferred.tag ++ t.executing.toList.map OfferSet.tag).Perm
             (s.deferred.map Deferred.tag ++ [w.tag]))

/-! ### Part states (9.1) -/

/-- R142: what a device reset leaves. The pins stay where they are (R71), and so does what the part has written into
host memory (R142, R146); the writes it had on the bus (the status block write, records assigned and not yet written,
the index writes made, the STATS_READ buffer writes) may still complete there (which of them had been issued is not recorded: log entry 36);
what the model keeps of its own (message counts, choices, the queue) stays. RESET_N held is kept by RESET and
FUNCTION_RESET, set by RESET_N_ASSERT and cleared by RESET_N_RELEASE (R60). Log entries 5 and 6. -/
def Obligations.DeviceResetLeavesResetState : Prop :=
  ∀ s : State,
    let writesOf := fun r : OutRing =>
      r.writes.map fun w => ({ address := r.base.toNat + 32 * w.slot, bytes := w.record.bytes } : BufferWrite)
    let t : State := { State.reset with
      resetHeld := s.resetHeld, intRises := s.intRises, intMessages := s.intMessages, hostMem := s.hostMem
      choices := s.choices, inputs := Vector.ofFn fun n => InputLine.reset n s.inputs[n].raw, pending := s.pending
      issued := s.issued
        ++ ((match s.starting with
              | some (.writingStatus g) => [{ address := g.status.toNat, bytes := List.replicate 64 0 }]
              | _ => [])
            ++ (match s.geom with
              | some g => writesOf g.compl ++ writesOf g.event[0] ++ writesOf g.event[1] ++ writesOf g.event[2]
                  ++ writesOf g.event[3]
                  ++ s.indexWrites.map fun w => { address := g.status.toNat + indexOffset w.field, bytes := le 4 w.value }
              | none => [])
            ++ s.bufWrites) }
    exec .reset s = .next t ∧ exec .functionReset s = .next t
      ∧ exec .resetNAssert s = .next { t with resetHeld := true }
      ∧ exec .resetNRelease s = .next { s with resetHeld := false }

/-- R137, R138: START in IDLE enters STARTING with start error NONE, an empty CLOSED intake and an empty Hold Queue,
and issues the read of the setup block at the 64-bit setup address (log entry 22 for the geometry dropped here); an
address that is no multiple of 4096 fails with BAD_ALIGN and the STATE cause; in every other state, and while RESET_N
is asserted (log entry 6), START is ignored. R138, R143: the setup block read returns: a block that passes the checks
gives the ring geometry, every index and loss count 0, and the status block write is issued (that the base of an absent
event ring is held as 0 is the model's choice, log entry 25: R139 only says that it is not read); a check that fails
returns the part to IDLE with its code, no geometry and the STATE cause. R138, R71, R5: the status block write
completes: 64 bytes are 0, the geometry is in force, the part enters RUNNING with an empty OPEN intake, every line's
capture state reset, and the STATE cause set. In every other part state, and in STARTING while the other of the two is
outstanding, there is no read to return and no write to complete (log entry 2). -/
def Obligations.StartSequenceReachesRunning : Prop :=
  (∀ s : State,
     let a := s.setupLo.toNat + 2 ^ 32 * s.setupHi.toNat
     let started : State := { s with
       part := .starting, startError := .noError, starting := some (.readingSetup (BitVec.ofNat 64 a)), geom := none
       intake := [], intakeOpen := false, hold := [] }
     (s.part = .idle → s.resetHeld = false → a % 4096 = 0 → exec .start s = .next started)
     ∧ (s.part = .idle → s.resetHeld = false → a % 4096 ≠ 0 → exec .start s = .next
         (setCause .state { started with part := .idle, startError := .badAlign, starting := none }))
     ∧ (s.part ≠ .idle ∨ s.resetHeld = true → exec .start s = .next s))
  ∧ (∀ (s : State) (b : SetupBlock) (a : Quad),
       let ring := fun (base : Quad) (size : Word) =>
         ({ base := base, size := size.toNat, producer := 0, fill := 0, consumer := 0, loss := 0, writes := [] } : OutRing)
       (s.part = .starting → s.starting = some (.readingSetup a) →
         (setupError b = .noError → exec (.setupReadDone b) s = .next { s with
           starting := some (.writingStatus {
             cmd := { base := b.cmdBase, size := b.cmdSize.toNat, producer := 0, consumer := 0 }
             compl := ring b.complBase b.complSize
             event := Vector.ofFn fun i => ring (if b.eventSize[i] = 0 then 0 else b.eventBase[i]) b.eventSize[i]
             notice := if h : b.notice.toNat < 4 then some ⟨b.notice.toNat, h⟩ else none
             status := b.status }) })
         ∧ (setupError b ≠ .noError → exec (.setupReadDone b) s = .next
             (setCause .state { s with part := .idle, startError := setupError b, starting := none, geom := none })))
       ∧ (s.part ≠ .starting ∨ (∀ a, s.starting ≠ some (.readingSetup a)) → exec (.setupReadDone b) s = .next s))
  ∧ (∀ (s : State) (g : Geometry),
       (s.part = .starting → s.starting = some (.writingStatus g) →
         exec .statusBlockInitDone s = .next (setCause .state { s with
           part := .running, starting := none, geom := some g, intake := [], intakeOpen := true, hold := []
           hostMem := Memory.writeBytes s.hostMem g.status.toNat (List.replicate 64 0)
           inputs := Vector.ofFn fun n => s.inputs[n].stable }))
       ∧ (s.part ≠ .starting ∨ (∀ g, s.starting ≠ some (.writingStatus g)) → exec .statusBlockInitDone s = .next s))

/-- R139: the checks of the setup block, values first, then alignment, then extents. -/
def Obligations.SetupBlockChecks : Prop :=
  ∀ b : SetupBlock,
    let isSize := fun n : Nat => ∃ k : Nat, 4 ≤ k ∧ k ≤ 12 ∧ n = 2 ^ k
    let regions := (b.cmdBase.toNat, 32 * b.cmdSize.toNat) :: (b.complBase.toNat, 32 * b.complSize.toNat)
      :: (b.status.toNat, 64) :: ((List.finRange 4).filter fun i => b.eventSize[i] ≠ 0).map
        fun i => (b.eventBase[i].toNat, 32 * b.eventSize[i].toNat)
    let values := b.version = 1 ∧ isSize b.cmdSize.toNat ∧ isSize b.complSize.toNat
      ∧ (∀ i : Fin 4, b.eventSize[i] = 0 ∨ isSize b.eventSize[i].toNat)
      ∧ (b.notice = 0xFF ∨ ∃ ring : Fin 4, b.notice.toNat = ring.val ∧ b.eventSize[ring] ≠ 0)
      ∧ ∀ r ∈ regions, r.1 + r.2 ≤ 2 ^ 64
    let aligned := ∀ r ∈ regions, r.1 % 64 = 0
    let disjoint := regions.Pairwise fun p q => p.1 + p.2 ≤ q.1 ∨ q.1 + q.2 ≤ p.1
    (values ∧ aligned ∧ disjoint ↔ setupError b = .noError)
      ∧ (¬ values ↔ setupError b = .badSize)
      ∧ (values ∧ ¬ aligned ↔ setupError b = .badAlign)
      ∧ (values ∧ aligned ∧ ¬ disjoint ↔ setupError b = .overlap)

/-- R140, R12, R53, R83, R96, R116, R147, R55: STOP in RUNNING with no command under execution: every deferred command
completes ABORTED in the order taken, the session closes with reason STOP and a CLOSE, the intake, an event under
decision and the Hold Queue are discarded and counted, an announce under way ends, the tag memory is emptied, capture
state is reset, pulses end, and a command record's read that is outstanding is dropped; a command named as overtaken
with no read outstanding is none. In every other part state STOP is ignored. R83, R7: an offer that reaches the intake
after the STOP is its producer's own step on a CLOSED intake; so the refusal of a line's edge or catch-up counts in
refused_closed (log entry 10 for how such offers are given). R140: STOPPING ends when no command is under execution or
deferred, no delivery is in progress, every STATS_READ buffer write has completed, every record taken is written and
its producer index is written to the status block; the part enters IDLE and the STATE cause is set. Notices handed
over count as taken (log entry 8). Writes of the command consumer index that are outstanding then complete, one after
another, in the same step (log entry 40). Until then, and in every other state, nothing happens. -/
def Obligations.StopEntersStoppingWhichEndsInIdle : Prop :=
  (∀ s : State,
     (s.part = .running → exec (.stop none []) s = .next { s.stopped with
       geom := s.geom.map (Geometry.complete (s.deferred.map (abortedRecord s))) })
     ∧ (∀ (o : Overtaken) (late : List LateOffer), s.part = .running → s.cmdRead = false →
         exec (.stop (some o) late) s = exec (.stop none late) s)
     ∧ ∀ (during : Option Overtaken) (late : List LateOffer), s.part ≠ .running →
         exec (.stop during late) s = .next s)
  ∧ (∀ (s u : State) (n : Fin 16) (level : Level) (f : RxEventFields) (late : List LateOffer), s.part = .running →
       let closed : State := { s with intakeOpen := false }
       let rest := fun u : State => exec (.stop none late) u
       (exec (.filterAccept n) closed = .next u → exec (.stop none (.edge n :: late)) s = rest u)
       ∧ (exec (.rawChange n level) closed = .next u → exec (.stop none (.unfiltered n level :: late)) s = rest u)
       ∧ (exec (.spacingEnd n) closed = .next u → exec (.stop none (.catchUp n :: late)) s = rest u)
       ∧ (exec (.rxEcho 0 0 0 0 (.announce (some 1))) closed = .next u → exec (.stop none (.announce :: late)) s = rest u)
       ∧ (exec (.rxEvent f) closed = .next u → exec (.stop none (.frame f :: late)) s = rest u))
  ∧ (∀ (s : State) (n : Fin 16), s.part = .running →
       let l := s.inputs[n]
       let refused := fun level : Level => exec (.stop none []) { s with inputs := s.inputs.set n { l with
         raw := level, counters := { l.counters with refusedClosed := bump l.counters.refusedClosed } } }
       let selected := fun level : Level =>
         l.config.mode = .both ∨ (l.config.mode = .riseOnly ∧ level = .high) ∨ (l.config.mode = .fallOnly ∧ level = .low)
       (∀ start, l.candidate = some start → start + l.config.filter.toNat ≤ s.localTime → selected l.raw →
         l.spacingEnd = none → exec (.stop none [.edge n]) s = refused l.raw)
       ∧ (∀ level, l.raw ≠ level → selected level → l.candidate = none → l.config.filter = 0 → l.spacingEnd = none →
           exec (.stop none [.unfiltered n level]) s = refused level)
       ∧ (∀ finish, l.spacingEnd = some finish → finish ≤ s.localTime → l.suppressed = true → l.config.mode ≠ .off →
           (l.config.mode = .both → l.accepted ≠ l.reported) →
           exec (.stop none [.catchUp n]) s = refused l.raw))
  ∧ (∀ s : State,
       let done := s.part = .stopping ∧ s.executing = none ∧ s.deferred = [] ∧ s.delivery = none ∧ s.bufWrites = []
         ∧ (∀ g, s.geom = some g → g.compl.writes = [] ∧ ∀ ring : Fin 4, g.event[ring].writes = [])
         ∧ s.faultNotices = [] ∧ s.linkNotices = [] ∧ ∀ w ∈ s.indexWrites, w.field = .command
       (done → s.indexWrites = [] → exec .stoppingEnd s = .next (setCause .state { s with part := .idle }))
         ∧ (∀ u : State, done → s.indexWrites ≠ [] → s.geom ≠ none →
             exec (.recordWriteDone (.index .command)) s = .next u → exec .stoppingEnd s = exec .stoppingEnd u)
         ∧ (¬ done → exec .stoppingEnd s = .next s))

/-- R140, R160: a STOP inside the execution of a command in range (log entry 10), before its request (0) or after it;
the command then completes with its own outcome behind the commands aborted, and no further command is read. SCHEDULE:
an offer not yet made is answered CLOSED; one made before keeps its answer, ACCEPTED (the event is discarded and
counted with the intake), FULL or CLOSED. R80, R161, R167: REFRESH and ROUTE_SET with REFRESH after n offers: the
offers made keep their answers, the lines left make no event and count as refused, and the refusals are reported as
met by CLOSED. R95, R166: OUTPUT_SET met by STOPPING completes WRONG_MODE with the line's mode and 1. R140, R171:
LINK_OPEN before its request: the session, by then CLOSED, enters CALLING, and when the execution ends the LINK_OPEN
completes ABORTED behind those aborted at the STOP and its session closes again with reason STOP; after its request it
is aborted with the others. -/
def Obligations.StopInsideExecution : Prop :=
  ∀ (s : State) (g : Geometry) (tag : Word), Ready s g →
    let finish := fun (u : State) (record : HostRecord) =>
      ({ State.afterTake g (u.deferred.map (abortedRecord u) ++ [record]) u.stopped with cmdRead := false } : State)
    (∀ (f : ScheduleFields) (kind : EventKind) (n : Nat), scheduleKind f = some kind →
      let accepted : State := { s with
        intake := s.intake ++ [{ source := f.source.setWidth 8, kind := kind, capture := f.stamp.toNat
                                 origin := .host f.eventTag
                                 flags := { coalesced := false, refresh := false, unaligned := false } }]
        tags := tagsAfterSchedule f.eventTag s.tags }
      exec (.stop (some ⟨tag, .schedule f, 0⟩) []) s = .next (finish s (.completion 0x08 tag .closed 0 0 0))
      ∧ (s.intakeOpen = true → s.intake.length < 64 →
          exec (.stop (some ⟨tag, .schedule f, n + 1⟩) []) s = .next (finish accepted
            (.completion 0x08 tag .ok (BitVec.ofNat 32 s.localTime) (BitVec.ofNat 32 (s.localTime / 2 ^ 32)) 0)))
      ∧ (s.intakeOpen = true → 64 ≤ s.intake.length →
          exec (.stop (some ⟨tag, .schedule f, n + 1⟩) []) s = .next (finish s (.completion 0x08 tag .intakeFull 0 0 0)))
      ∧ (s.intakeOpen = false →
          exec (.stop (some ⟨tag, .schedule f, n + 1⟩) []) s = .next (finish s (.completion 0x08 tag .closed 0 0 0))))
    ∧ (∀ (f : RouteSetFields) (n : Nat), FieldsInRange s (.routeSet f) → f.refresh = 1 →
        let lines := (List.finRange 16).filter fun n =>
          s.inputs[n].config.mode ≠ .off ∧ s.inputs[n].config.source = f.source.setWidth 8
        let made := s.acceptedLines (lines.take n)
        exec (.stop (some ⟨tag, .routeSet f, n⟩) []) s = .next (finish (replaceRoute f (s.stateEventsMade made))
          (.completion 0x01 tag .ok (BitVec.ofNat 32 made.length) (BitVec.ofNat 32 (lines.length - made.length))
            (if s.intakeOpen = false ∧ lines.take n ≠ [] ∨ lines.drop n ≠ [] then 1 else 0))))
    ∧ (∀ (set : Word) (n : Nat), FieldsInRange s (.refresh set) →
        let lines := (List.finRange 16).filter fun n => set.getLsbD n.val = true ∧ s.inputs[n].config.mode ≠ .off
        let made := s.acceptedLines (lines.take n)
        exec (.stop (some ⟨tag, .refresh set, n⟩) []) s = .next (finish (s.stateEventsMade made)
          (.completion 0x0A tag (if s.intakeOpen = false ∧ lines.take n ≠ [] ∨ lines.drop n ≠ [] then .closed else .ok)
            (BitVec.ofNat 32 made.length) (BitVec.ofNat 32 (lines.length - made.length)) 0)))
    ∧ (∀ f : OutputSetFields, FieldsInRange s (.outputSet f) →
        let n : Fin 16 := ⟨f.line.toNat % 16, Nat.mod_lt _ (by decide)⟩
        let mode := s.outputs[n].mode
        exec (.stop (some ⟨tag, .outputSet f, 0⟩) []) s = .next (finish s
          (.completion 0x07 tag .wrongMode (if mode = .disabled then 0 else if mode = .routed then 1 else 2) 1 0)))
    ∧ (∀ (f : LinkOpenFields) (n : Nat), FieldsInRange s (.linkOpen f) →
        let own : Half := if s.link.own = 65535 then 1 else s.link.own + 1
        let called := fun l : Link => { l with
          session := .calling, own := own, recorded := 0, attempts := 0
          openTimer := some 0, keepTimer := some 0, helloTimer := some 0, hellos := l.hellos ++ [(own, 0)]
          params := {
            openTimeout := f.openTimeout.toNat * 100000, ackTimeout := f.ackTimeout.toNat * 100
            retryLimit := f.retryLimit.toNat, idleTimeout := f.idleTimeout.toNat * 100
            alignInterval := f.alignInterval.toNat * 100000, maxDelay := f.maxDelay.toNat } }
        let u : State := { s with link := called s.link, deferred := s.deferred ++ [⟨tag, .linkOpen⟩] }
        exec (.stop (some ⟨tag, .linkOpen f, 0⟩) []) s = .next
          { finish s (.completion 0x0D tag .aborted 9 (own.setWidth 32) 0) with
            link := (called s.stopped.link).ended .closed .stop true
            linkNotices := if g.notice ≠ none then s.stopped.linkNotices ++ [.link .closed .stop own 0 s.localTime]
              else s.stopped.linkNotices }
        ∧ (s.link.session = .closed ∨ s.link.session = .failed →
            exec (.stop (some ⟨tag, .linkOpen f, n + 1⟩) []) s = .next
              { State.afterTake g (u.deferred.map (abortedRecord u)) u.stopped with cmdRead := false }))

/-- R138, R141, R54, R83, R97, R116, R182: a bus-master access error ends STARTING with BUS_ERROR and the STATE cause;
in RUNNING and STOPPING the part enters HALTED: the link closes with a CLOSE and no notice, intake, events under
decision and Hold Queue are discarded and counted, an announce under way ends, the delivery is abandoned, records not
yet written are dropped, index writes that have not completed stay unwritten, a STATS_READ buffer write already issued may still land (log entry 21), capture state is
reset, pulses end, HOST_BUS is raised with context 0 and taken, and the STATE cause is set; the deferred commands and
a command under execution stay with no completion (R160). In IDLE and HALTED the part makes no access (log entry 24;
log entry 21 for the ring indices). R83, R7: an offer that reaches the intake after the entry to HALTED is its
producer's own step on a CLOSED intake (log entry 10). R160: the entry may fall inside the execution of a command
taken: before its request (0), after the offer of a SCHEDULE, or after n offers of a REFRESH or a ROUTE_SET with
REFRESH; the command gets no completion (log entry 10). R141, R147: the index write of that command has completed
before the entry, behind those made before it, or stays unwritten. A command named with no read outstanding is none. -/
def Obligations.BusErrorHaltsThePart : Prop :=
  (∀ s : State,
    let halted : State := { s with
      part := .halted, cmdRead := false, indexWrites := [], bufWrites := [], issued := s.issued ++ s.bufWrites, delivery := none
      faultNotices := [], linkNotices := []
      intake := [], intakeOpen := false, announcing := [], deciding := none, handover := none, hold := []
      discardedAtStop := bumpBy s.hold.length (bumpBy (s.intake.length + s.decisions) s.discardedAtStop)
      link := if s.link.session = .closed then s.link else s.link.ended .closed s.link.reason true
      geom := s.geom.map fun g => { g with
        compl := { g.compl with writes := [] }
        event := Vector.ofFn fun ring => { g.event[ring] with writes := [] } }
      inputs := Vector.ofFn fun n => s.inputs[n].stable
      outputs := Vector.ofFn fun n => { s.outputs[n] with pulse := none } }
    (∀ during late indexed, s.part = .starting → exec (.busMasterError during late indexed) s = .next
      (setCause .state { s with part := .idle, startError := .busError, starting := none, geom := none }))
    ∧ (s.part = .running ∨ s.part = .stopping →
        exec (.busMasterError none []) s = .next (setCause .state (takeRaise ⟨.hostBus, 0⟩ halted)))
    ∧ (∀ during late indexed, s.part = .idle ∨ s.part = .halted → exec (.busMasterError during late indexed) s = .next s)
    ∧ (∀ o late indexed, s.part ≠ .running ∨ s.cmdRead = false →
        exec (.busMasterError (some o) late indexed) s = exec (.busMasterError none late) s)
    ∧ ∀ late indexed, exec (.busMasterError none late indexed) s = exec (.busMasterError none late) s)
  ∧ (∀ (s u : State) (n : Fin 16) (level : Level) (f : RxEventFields) (late : List LateOffer), s.part = .running →
       let closed : State := { s with intakeOpen := false }
       let rest := fun u : State => exec (.busMasterError none late) u
       (exec (.filterAccept n) closed = .next u → exec (.busMasterError none (.edge n :: late)) s = rest u)
       ∧ (exec (.rawChange n level) closed = .next u →
           exec (.busMasterError none (.unfiltered n level :: late)) s = rest u)
       ∧ (exec (.spacingEnd n) closed = .next u → exec (.busMasterError none (.catchUp n :: late)) s = rest u)
       ∧ (exec (.rxEcho 0 0 0 0 (.announce (some 1))) closed = .next u →
           exec (.busMasterError none (.announce :: late)) s = rest u)
       ∧ (exec (.rxEvent f) closed = .next u → exec (.busMasterError none (.frame f :: late)) s = rest u))
  ∧ (∀ (s : State) (g : Geometry) (tag : Word) (c : Command) (late : List LateOffer), Ready s g →
       let taken : State := { State.afterTake g [] s with cmdRead := false }
       ((∀ set, c ≠ .refresh set) → (∀ f, c = .routeSet f → f.refresh ≠ 1) →
         exec (.busMasterError (some ⟨tag, c, 0⟩) late) s = exec (.busMasterError none late) taken)
       ∧ (∀ (f : ScheduleFields) (kind : EventKind) (n : Nat), c = .schedule f → scheduleKind f = some kind →
           s.intakeOpen = true → s.intake.length < 64 →
           exec (.busMasterError (some ⟨tag, c, n + 1⟩) late) s = exec (.busMasterError none late) { taken with
             intake := s.intake ++ [{ source := f.source.setWidth 8, kind := kind, capture := f.stamp.toNat
                                      origin := .host f.eventTag
                                      flags := { coalesced := false, refresh := false, unaligned := false } }]
             tags := tagsAfterSchedule f.eventTag s.tags })
       ∧ (∀ (n : Nat) (t : State), ((∃ set, c = .refresh set) ∨ ∃ f, c = .routeSet f ∧ f.refresh = 1) →
           FieldsInRange s c → exec (takeUpTo (some n) tag c) s = .next t →
           exec (.busMasterError (some ⟨tag, c, n⟩) late) s = exec (.busMasterError none late) t))
  ∧ (∀ (s u t : State) (g : Geometry) (o : Overtaken) (late : List LateOffer), Ready s g →
       ((∃ w ∈ s.indexWrites, w.field = .command) → exec (.recordWriteDone (.index .command)) s = .next u →
         exec (.busMasterError (some o) late true) s = exec (.busMasterError (some o) late true) u)
       ∧ ((∀ w ∈ s.indexWrites, w.field ≠ .command) → exec (.busMasterError (some o) late) s = .next t →
           exec (.busMasterError (some o) late true) s = .next { t with
             hostMem := Memory.writeBytes s.hostMem g.status.toNat (le 4 ((g.cmd.consumer + 1) % g.cmd.size)) }))

/-! ### The register window (13.5) -/

/-- R144: SUBMIT. In RUNNING a value below the command ring size becomes the command producer index, and the read of
the next command record is issued when the consumer index differs from it, no command is under execution and the
reservation allows it; a value of N or more is ignored and raises HOST_PROTOCOL with the word; in every other state
the write is ignored. A read of SUBMIT returns the producer index held. -/
def Obligations.SubmitSetsProducerIndex : Prop :=
  ∀ (s : State) (word : Word),
    (∀ g, s.geom = some g → s.part = .running →
      (word.toNat < g.cmd.size → exec (.submit word) s = .next { s with
        geom := some { g with cmd := { g.cmd with producer := word.toNat } }
        cmdRead := s.cmdRead || (s.executing.isNone && g.cmd.consumer != word.toNat
          && decide (s.deferred.length < g.compl.free)) })
      ∧ (g.cmd.size ≤ word.toNat →
        exec (.submit word) s = .next { s with raises := s.raises ++ [⟨.hostProtocol, word⟩] }))
    ∧ (s.part ≠ .running → exec (.submit word) s = .next s)
    ∧ (∀ g, s.geom = some g → s.readBytes 0x14 4 = le 4 (BitVec.ofNat 32 g.cmd.producer).toNat)

/-- R145, R147: RELEASE of the completion ring (selector 0) and of event ring k (selector k + 1). In RUNNING an index
of a present ring that is no further from the consumer index than the producer index is becomes the consumer index;
slots freed in the completion ring may let the next command be taken. Any other word raises HOST_PROTOCOL with the
word, and in every other state the write is ignored. An index of N or more is out of range (log entry 35). -/
def Obligations.ReleaseFreesSlotsOrFaults : Prop :=
  ∀ (s : State) (word : Word),
    (s.part ≠ .running → exec (.release word) s = .next s)
    ∧ ∀ g, s.geom = some g → s.part = .running →
    let selector := word.toNat / 2 ^ 16 % 8
    let i := word.toNat % 2 ^ 16
    let accepts := fun r : OutRing => i < r.size
      ∧ (i + r.size - r.consumer) % r.size ≤ (r.producer + r.size - r.consumer) % r.size
    let refused : State := { s with raises := s.raises ++ [⟨.hostProtocol, word⟩] }
    (selector = 0 → accepts g.compl →
      exec (.release word) s = .next { s with
        geom := some { g with compl := { g.compl with consumer := i } }
        cmdRead := s.cmdRead || (s.executing.isNone && g.cmd.consumer != g.cmd.producer
          && decide (s.deferred.length < ({ g.compl with consumer := i } : OutRing).free)) })
    ∧ (selector = 0 → ¬ accepts g.compl → exec (.release word) s = .next refused)
    ∧ (∀ ring : Fin 4, selector = ring.val + 1 →
        (accepts g.event[ring] → exec (.release word) s = .next { s with
          geom := some { g with event := g.event.set ring { g.event[ring] with consumer := i } }
          cmdRead := s.cmdRead || (s.executing.isNone && g.cmd.consumer != g.cmd.producer
            && decide (s.deferred.length < g.compl.free)) })
        ∧ (¬ accepts g.event[ring] → exec (.release word) s = .next refused))
    ∧ (5 ≤ selector → exec (.release word) s = .next refused)

/-- R153, R154: a write of INT_CAUSE clears each cause bit written at 1 and no other; a write of INT_ENABLE replaces
the enable bits. An interrupt message is called for when the condition (some bit set in both) goes from false to true,
and is sent when message interrupts are enabled then (a free value: log entry 14). While RESET_N is asserted neither
write acts (log entry 6). R153, R154: an event that sets a cause sets its bit alone, under the same rule for the
message. -/
def Obligations.InterruptRegistersAndCauses : Prop :=
  (∀ (s : State) (word : Word),
     let written := fun cause enable : BitVec 7 =>
       let rises := s.intCause &&& s.intEnable = 0 ∧ cause &&& enable ≠ 0
       ({ s with
          intCause := cause, intEnable := enable
          intRises := if rises then s.intRises + 1 else s.intRises
          intMessages :=
            if rises ∧ Config.messageInterruptsOn s.intRises = true then s.intMessages + 1 else s.intMessages } : State)
     (s.resetHeld = false →
       exec (.intCause word) s = .next (written (s.intCause &&& ~~~word.setWidth 7) s.intEnable)
       ∧ exec (.intEnable word) s = .next (written s.intCause (word.setWidth 7)))
     ∧ (s.resetHeld = true → exec (.intCause word) s = .next s ∧ exec (.intEnable word) s = .next s))
  ∧ (∀ (s : State) (c : Cause),
       let cause := s.intCause ||| BitVec.ofNat 7 (2 ^ c.bit)
       let rises := s.intCause &&& s.intEnable = 0 ∧ cause &&& s.intEnable ≠ 0
       setCause c s = { s with
         intCause := cause
         intRises := if rises then s.intRises + 1 else s.intRises
         intMessages :=
           if rises ∧ Config.messageInterruptsOn s.intRises = true then s.intMessages + 1 else s.intMessages })

/-- R199, R137, 13.5: a write of other than four bytes, a write at an offset of no writable register, and a write
while RESET_N is asserted (log entry 6) do nothing (log entry 37 for more than four bytes); SETUP_LO and SETUP_HI take
the word in every part state; CONTROL takes one action by its bits and the part state. 13.5, R136: what the window
shows: IDENT, STATUS (part state, start error, intake, session state, and FAULT_N, asserted while some class is sticky
and enabled in the report mask, R184), the setup address, the interrupt registers, and 0 for CONTROL, RELEASE and the
rest. SUBMIT shows 0 without a geometry (log entry 29). -/
def Obligations.RegisterWindowWritesAndReads : Prop :=
  (∀ (s : State) (offset count : Nat) (word : Word),
     (count ≠ 4 → exec (.registerWrite offset count word) s = .next s)
     ∧ (s.resetHeld = true → exec (.registerWrite offset count word) s = .next s)
     ∧ (offset ∉ [0x04, 0x0C, 0x10, 0x14, 0x18, 0x1C, 0x20] → exec (.registerWrite offset count word) s = .next s)
     ∧ (s.resetHeld = false →
         exec (.registerWrite 0x0C 4 word) s = .next { s with setupLo := word }
         ∧ exec (.registerWrite 0x10 4 word) s = .next { s with setupHi := word }
         ∧ exec (.registerWrite 0x04 4 word) s =
             (if word.getLsbD 2 then exec .reset s
              else if word.getLsbD 0 = true ∧ s.part = .idle then exec .start s
              else if word.getLsbD 1 = true ∧ s.part = .running then exec (.stop none []) s
              else .next s)))
  ∧ (∀ s : State,
       s.readWord 0x00 = 0x01161C3D
       ∧ (s.readWord 0x08).extractLsb' 0 4 = BitVec.ofNat 4 s.part.code
       ∧ (s.readWord 0x08).extractLsb' 4 4 = BitVec.ofNat 4 s.startError.code
       ∧ (s.readWord 0x08).getLsbD 8 = s.intakeOpen
       ∧ (s.readWord 0x08).extractLsb' 9 3 = BitVec.ofNat 3 s.link.session.code
       ∧ ((s.readWord 0x08).getLsbD 12 = true ↔ ∃ k : Fin 9, s.faults[k].sticky = true ∧ s.faults[k].enabled = true)
       ∧ (faultAsserted s = true ↔ ∃ k : Fin 9, s.faults[k].sticky = true ∧ s.faults[k].enabled = true)
       ∧ (s.readWord 0x08).extractLsb' 13 19 = 0
       ∧ (s.geom = none → s.readWord 0x14 = 0)
       ∧ s.readWord 0x0C = s.setupLo ∧ s.readWord 0x10 = s.setupHi
       ∧ s.readWord 0x1C = s.intCause.setWidth 32 ∧ s.readWord 0x20 = s.intEnable.setWidth 32
       ∧ ∀ offset : Nat, offset = 0x04 ∨ offset = 0x18 ∨ 0x24 ≤ offset → s.readWord offset = 0)

/-! ### Commands: what they have in common (10.1) -/

/-- R147: with no command record's read outstanding, or outside RUNNING, no command is taken (log entry 2), and a step
of another command than the one under execution does nothing then. R156, R159: a record of an unknown kind completes
UNKNOWN, its kind echoed and the result words 0, and changes nothing. R156 and each kind's rule: a command with a
parameter field out of range completes INVALID with result words 0 and changes nothing. -/
def Obligations.CommandsNotTakenOrRejected : Prop :=
  (∀ (s : State) (tag : Word) (c : Command) (pause : Option Nat), s.part ≠ .running ∨ s.cmdRead = false →
     (∀ w, s.executing = some w → w.tag ≠ tag ∨ w.command ≠ c) → exec (takeUpTo pause tag c) s = .next s)
  ∧ (∀ (s : State) (g : Geometry) (tag : Word) (kind : Byte), Ready s g → (kind.toNat = 0 ∨ 20 ≤ kind.toNat) →
       exec (.unknownCommand tag kind) s = .next (s.commandDone g [] (.completion kind tag .unknown 0 0 0)))
  ∧ (∀ (s : State) (g : Geometry) (tag : Word) (c : Command) (pause : Option Nat), Ready s g → ¬ FieldsInRange s c →
       exec (takeUpTo pause tag c) s = .next (s.commandDone g [] (.completion (Command.code c) tag .invalid 0 0 0)))

/-! ### Route commands (10.3) -/

/-- R31, R161: ROUTE_SET without REFRESH replaces the entry's fields, sets its counters to 0 and completes OK. R33,
R50, R162: ROUTE_CLEAR returns the entry to UNUSED and its reset fields, its counters kept; with PURGE the Hold Queue
then loses every entry of the source ID, of any origin, and word 1 is their number. -/
def Obligations.RouteSetAndClearWriteEntry : Prop :=
  (∀ (s : State) (g : Geometry) (tag : Word) (f : RouteSetFields) (pause : Option Nat), Ready s g →
     FieldsInRange s (.routeSet f) → f.refresh = 0 →
     exec (.routeSet tag f pause) s = .next (State.commandDone g [] (.completion 0x01 tag .ok 0 0 0) { s with
       routes := s.routes.set (f.source.toNat % 256) {
         state := if f.state = 1 then .active else .suspended
         config := {
           outputs := f.outputs.setWidth 16, rings := f.rings.setWidth 4, forward := f.forward == 1
           latency := f.latency.setWidth 24, late := if f.late = 0 then .deliverLate else .discard
           kinds := f.kinds.setWidth 5, width := f.width.setWidth 16 }
         counters := ⟨0, 0, 0, 0, 0, 0, 0, 0⟩ } (Nat.mod_lt _ (by decide)) }))
  ∧ (∀ (s : State) (g : Geometry) (tag : Word) (f : RouteClearFields), Ready s g → FieldsInRange s (.routeClear f) →
       let i := f.source.toNat % 256
       have h : i < 256 := Nat.mod_lt _ (by decide)
       let cleared : State := { s with routes := s.routes.set i {
         state := .unused
         config := { outputs := 0, rings := 0, forward := false, latency := 0, late := .deliverLate, kinds := 31, width := 0 }
         counters := s.routes[i].counters } }
       let kept := s.hold.filter fun e => e.event.source.toNat ≠ i
       let removed := s.hold.length - kept.length
       (f.purge = 0 → exec (.routeClear tag f) s = .next (cleared.commandDone g [] (.completion 0x02 tag .ok 0 0 0)))
       ∧ (f.purge = 1 → exec (.routeClear tag f) s = .next
           (State.commandDone g [] (.completion 0x02 tag .ok (BitVec.ofNat 32 removed) 0 0) { cleared with
             hold := kept
             holdCounters := { s.holdCounters with purged := bumpBy removed s.holdCounters.purged } })))

/-- R31, R80, R161: ROUTE_SET with REFRESH replaces the entry, then offers a STATE event for each line of the source
ID whose mode is not OFF, in ascending line number; it completes OK with the events made, the events refused, and
whether the refusals met a CLOSED intake, when no other step falls between the offers. R80, R167, R79: REFRESH offers
a STATE event for each named line whose mode is not OFF, in ascending line number; the accepted ones state the line's
accepted level now with REFRESH, and each accepted line's last reported level follows. It completes CLOSED when the
offers met a CLOSED intake, and OK otherwise, with the events made and refused, when no other step falls between the
offers. -/
def Obligations.RefreshesStateLines : Prop :=
  (∀ (s : State) (g : Geometry) (tag : Word) (f : RouteSetFields), Ready s g → FieldsInRange s (.routeSet f) →
     f.refresh = 1 →
     let lines := (List.finRange 16).filter fun n =>
       s.inputs[n].config.mode ≠ .off ∧ s.inputs[n].config.source = f.source.setWidth 8
     let made := s.acceptedLines lines
     let u := replaceRoute f (s.stateEventsMade made)
     exec (.routeSet tag f none) s = .next (u.commandDone g [] (.completion 0x01 tag .ok
       (BitVec.ofNat 32 made.length) (BitVec.ofNat 32 (lines.length - made.length))
       (if s.intakeOpen = false ∧ lines ≠ [] then 1 else 0))))
  ∧ (∀ (s : State) (g : Geometry) (tag : Word) (set : Word), Ready s g → FieldsInRange s (.refresh set) →
       let lines := (List.finRange 16).filter fun n => set.getLsbD n.val = true ∧ s.inputs[n].config.mode ≠ .off
       let made := s.acceptedLines lines
       exec (.refresh tag set none) s = .next ((s.stateEventsMade made).commandDone g [] (.completion 0x0A tag
         (if s.intakeOpen = false ∧ lines ≠ [] then .closed else .ok)
         (BitVec.ofNat 32 made.length) (BitVec.ofNat 32 (lines.length - made.length)) 0)))

/-- R163, R34: ROUTE_SUSPEND and ROUTE_RESUME. A source ID above 255 and an UNUSED entry complete INVALID; otherwise
the entry is made SUSPENDED or ACTIVE, every other field and counter kept, and the command completes OK with the state
before. -/
def Obligations.SuspendAndResumeRoute : Prop :=
  ∀ (s : State) (g : Geometry) (tag : Word) (source : Half), Ready s g →
    let i := source.toNat % 256
    have h : i < 256 := Nat.mod_lt _ (by decide)
    let entry := s.routes[i]
    let before : Word := if entry.state = .active then 1 else 2
    (255 < source.toNat ∨ entry.state = .unused →
      exec (.routeSuspend tag source) s = .next (s.commandDone g [] (.completion 0x03 tag .invalid 0 0 0))
      ∧ exec (.routeResume tag source) s = .next (s.commandDone g [] (.completion 0x04 tag .invalid 0 0 0)))
    ∧ (source.toNat ≤ 255 → entry.state ≠ .unused →
      exec (.routeSuspend tag source) s = .next
        (State.commandDone g [] (.completion 0x03 tag .ok before 0 0)
          { s with routes := s.routes.set i { entry with state := .suspended } })
      ∧ exec (.routeResume tag source) s = .next
        (State.commandDone g [] (.completion 0x04 tag .ok before 0 0)
          { s with routes := s.routes.set i { entry with state := .active } }))

/-! ### Line commands (10.4) -/

/-- R82, R164, R71: LINE_IN_CONFIG replaces the five settings and resets the line's capture state; its counters are
kept. R93, R165: LINE_OUT_CONFIG ends an active pulse and replaces the four settings; the line's counters are kept. -/
def Obligations.LineConfigsReplaceSettings : Prop :=
  (∀ (s : State) (g : Geometry) (tag : Word) (f : LineInFields), Ready s g → FieldsInRange s (.lineInConfig f) →
     let n : Fin 16 := ⟨f.line.toNat % 16, Nat.mod_lt _ (by decide)⟩
     exec (.lineInConfig tag f) s = .next (State.commandDone g [] (.completion 0x05 tag .ok 0 0 0) { s with
       inputs := s.inputs.set n { s.inputs[n] with
         config := {
           mode := if f.mode = 0 then .off else if f.mode = 1 then .riseOnly else if f.mode = 2 then .fallOnly else .both
           filter := f.filter.setWidth 12, spacing := f.spacing.setWidth 20, source := f.source.setWidth 8
           announce := f.announce == 1 }
         accepted := s.inputs[n].raw, reported := s.inputs[n].raw
         candidate := none, spacingEnd := none, suppressed := false } }))
  ∧ (∀ (s : State) (g : Geometry) (tag : Word) (f : LineOutFields), Ready s g → FieldsInRange s (.lineOutConfig f) →
       let n : Fin 16 := ⟨f.line.toNat % 16, Nat.mod_lt _ (by decide)⟩
       exec (.lineOutConfig tag f) s = .next (State.commandDone g [] (.completion 0x06 tag .ok 0 0 0) { s with
         outputs := s.outputs.set n { s.outputs[n] with
           pulse := none
           mode := if f.mode = 0 then .disabled else if f.mode = 1 then .routed else .host
           drive := if f.drive = 0 then .pushPull else .openDrain
           polarity := if f.polarity = 0 then .activeHigh else .activeLow
           resting := if f.resting = 0 then .low else .high } }))

/-- R89, R95, R166: OUTPUT_SET LEVEL on a HOST line, the part RUNNING: TRUNCATED (2) ends a pulse and is counted
applied too, REDUNDANT (3) states the resting level again, APPLIED (1) moves the line; word 2 is the level then shown
(log entry 18 for the fields read). A line in another mode completes WRONG_MODE with its mode, whatever the action.
R90, R95, R166: OUTPUT_SET PULSE on a HOST line, the part RUNNING: the pulse ends `width` ticks from now; APPLIED (1)
with no pulse active, RETRIGGERED (4) with one; word 2 is the shown level, the opposite of the resting level. -/
def Obligations.OutputSetActsOnHostLine : Prop :=
  (∀ (s : State) (g : Geometry) (tag : Word) (f : OutputSetFields), Ready s g → FieldsInRange s (.outputSet f) →
     let n : Fin 16 := ⟨f.line.toNat % 16, Nat.mod_lt _ (by decide)⟩
     let o := s.outputs[n]
     let level : Level := if f.level = 0 then .low else .high
     let shown : Word := if f.level = 0 then 0 else 1
     let done := fun (outcome : Word) (o : OutputLine) =>
       (State.commandDone g [] (.completion 0x07 tag .ok outcome shown 0) { s with outputs := s.outputs.set n o } : State)
     (o.mode = .host → f.action = 0 → o.pulse ≠ none → exec (.outputSet tag f) s = .next (done 2 { o with
       resting := level, pulse := none
       counters := { o.counters with truncated := bump o.counters.truncated, applied := bump o.counters.applied } }))
     ∧ (o.mode = .host → f.action = 0 → o.pulse = none → o.resting = level → exec (.outputSet tag f) s = .next
         (done 3 { o with counters := { o.counters with redundant := bump o.counters.redundant } }))
     ∧ (o.mode = .host → f.action = 0 → o.pulse = none → o.resting ≠ level → exec (.outputSet tag f) s = .next
         (done 1 { o with resting := level, counters := { o.counters with applied := bump o.counters.applied } }))
     ∧ (o.mode ≠ .host → exec (.outputSet tag f) s = .next
         (s.commandDone g [] (.completion 0x07 tag .wrongMode (if o.mode = .disabled then 0 else 1) 0 0))))
  ∧ (∀ (s : State) (g : Geometry) (tag : Word) (f : OutputSetFields), Ready s g → FieldsInRange s (.outputSet f) →
       let n : Fin 16 := ⟨f.line.toNat % 16, Nat.mod_lt _ (by decide)⟩
       let o := s.outputs[n]
       o.mode = .host → f.action = 1 →
       let pulsed := { o with pulse := some ((s.localTime : Int) + (f.width.toNat : Int)) }
       exec (.outputSet tag f) s = .next (State.commandDone g []
         (.completion 0x07 tag .ok (if o.pulse = none then 1 else 4) (if o.resting = .low then 1 else 0) 0) { s with
           outputs := s.outputs.set n { pulsed with
             counters := if o.pulse = none then { o.counters with applied := bump o.counters.applied }
               else { o.counters with retriggered := bump o.counters.retriggered } } }))

/-! ### Host events and time (10.5, 10.6) -/

/-- R168, R6, R55: SCHEDULE builds a HOST event with the stamp as capture time and no flags, and offers it: ACCEPTED
appends it to the intake, makes its tag the newest of the tag memory (an earlier record of the tag keeps its forwarded
bit; a full memory loses its oldest) and reports local time; FULL completes INTAKE_FULL and CLOSED completes CLOSED,
and neither changes anything. -/
def Obligations.ScheduleOffersHostEvent : Prop :=
  ∀ (s : State) (g : Geometry) (tag : Word) (f : ScheduleFields), Ready s g → FieldsInRange s (.schedule f) →
    let kind : EventKind :=
      if f.kind = 0 then .rise else if f.kind = 1 then .fall
      else if f.kind = 2 then .state (if f.param = 0 then .low else .high)
      else if f.kind = 3 then .pulse (f.param.setWidth 16) else .mark (f.param.setWidth 16)
    let event : Event := {
      source := f.source.setWidth 8, kind := kind, capture := f.stamp.toNat, origin := .host f.eventTag
      flags := { coalesced := false, refresh := false, unaligned := false } }
    let others := s.tags.filter fun r => r.tag ≠ f.eventTag
    let newest : TagRecord := ⟨f.eventTag, s.tags.any fun r => r.tag == f.eventTag && r.forwarded⟩
    (s.Sound → s.intakeOpen = true → s.intake.length < 64 →
      exec (.schedule tag f) s = .next (State.commandDone g []
        (.completion 0x08 tag .ok (BitVec.ofNat 32 s.localTime) (BitVec.ofNat 32 (s.localTime / 2 ^ 32)) 0)
        { s with
          intake := s.intake ++ [event]
          tags := (if others.length = 16 then others.drop 1 else others) ++ [newest] }))
    ∧ (s.intakeOpen = true → 64 ≤ s.intake.length →
        exec (.schedule tag f) s = .next (s.commandDone g [] (.completion 0x08 tag .intakeFull 0 0 0)))
    ∧ (s.intakeOpen = false →
        exec (.schedule tag f) s = .next (s.commandDone g [] (.completion 0x08 tag .closed 0 0 0)))

/-- R169, R48, R57: CANCEL removes every hold entry of origin HOST with the tag, in one step, and completes OK with
their number, the forwarded flag and the known flag of the tag in the tag memory. -/
def Obligations.CancelRemovesTaggedEntries : Prop :=
  ∀ (s : State) (g : Geometry) (tag eventTag : Word), Ready s g →
    let kept := s.hold.filter fun h => h.event.origin ≠ .host eventTag
    let removed := s.hold.length - kept.length
    let record := s.tags.find? fun r => r.tag == eventTag
    exec (.cancel tag eventTag) s = .next (State.commandDone g []
      (.completion 0x09 tag .ok (BitVec.ofNat 32 removed)
        (match record with | some r => if r.forwarded then 1 else 0 | none => 0)
        (match record with | some _ => 1 | none => 0))
      { s with
        hold := kept
        holdCounters := { s.holdCounters with cancelled := bumpBy removed s.holdCounters.cancelled } })

/-! ### Link and intake commands (10.7, 10.8) -/

/-- R105, R106, R158, R171: LINK_OPEN in CLOSED or FAILED enters CALLING under its parameters in ticks, with the next
session number (65,535 is followed by 1), no peer session recorded, the open and keepalive timers started and a HELLO
made, and joins the deferred set; in CALLING it completes BUSY and in ALIGNING and UP LINK_STATE, with the session
state, and changes nothing. -/
def Obligations.LinkOpenCallsOrIsRefused : Prop :=
  ∀ (s : State) (g : Geometry) (tag : Word) (f : LinkOpenFields), Ready s g → FieldsInRange s (.linkOpen f) →
    let own : Half := if s.link.own = 65535 then 1 else s.link.own + 1
    let calling : Link := { s.link with
      session := .calling, own := own, recorded := 0, attempts := 0
      openTimer := some 0, keepTimer := some 0, helloTimer := some 0, hellos := s.link.hellos ++ [(own, 0)]
      params := {
        openTimeout := f.openTimeout.toNat * 100000, ackTimeout := f.ackTimeout.toNat * 100
        retryLimit := f.retryLimit.toNat, idleTimeout := f.idleTimeout.toNat * 100
        alignInterval := f.alignInterval.toNat * 100000, maxDelay := f.maxDelay.toNat } }
    (s.link.session = .closed ∨ s.link.session = .failed → exec (.linkOpen tag f) s = .next
      (State.commandJoined g { s with link := calling, deferred := s.deferred ++ [⟨tag, .linkOpen⟩] }))
    ∧ (s.link.session = .calling → exec (.linkOpen tag f) s = .next
        (s.commandDone g [] (.completion 0x0D tag .busy 1 0 0)))
    ∧ (s.link.session = .aligning → exec (.linkOpen tag f) s = .next
        (s.commandDone g [] (.completion 0x0D tag .linkState 2 0 0)))
    ∧ (s.link.session = .up → exec (.linkOpen tag f) s = .next
        (s.commandDone g [] (.completion 0x0D tag .linkState 3 0 0)))

/-- R115, R172: LINK_CLOSE completes OK with the session state before it. In CLOSED it changes nothing; in every other
state the session enters CLOSED with reason HOST_CLOSE, everything of the session is discarded, a CLOSE with the own
session number is made, a LINK notice is handed over, and a LINK_OPEN in flight completes ABORTED first. -/
def Obligations.LinkCloseEndsSession : Prop :=
  ∀ (s : State) (g : Geometry) (tag : Word), Ready s g →
    let l := s.link.ended .closed .hostClose true
    let closed : State := { s with
      link := l
      linkNotices := if g.notice ≠ none then s.linkNotices ++ [.link .closed .hostClose l.own l.recorded s.localTime]
        else s.linkNotices
      deferred := if inFlight .linkOpen s then leaveDeferred .linkOpen s.deferred else s.deferred }
    (s.link.session = .closed → exec (.linkClose tag) s = .next
      (s.commandDone g [] (.completion 0x0E tag .ok 0 0 0)))
    ∧ (s.link.session ≠ .closed → exec (.linkClose tag) s = .next
        (closed.commandDone g (linkOpenRecord .aborted l s)
          (.completion 0x0E tag .ok (BitVec.ofNat 32 s.link.session.code) 0 0)))

/-- R173, R158: QUIESCE closes the intake and joins the deferred set with its deadline timer started; when the intake
is empty and the Hold Queue reports release quiet it completes OK in the same execution. With one in flight it
completes BUSY and does not change the intake. R176, R177, R158: STATS_READ joins the deferred set with the items of
its sections in their order to read, from the buffer address, and begins at its execution; with one in flight it
completes BUSY. R158, R179: FENCE records the deferred commands in flight and joins them; with none it completes OK in
its execution. With one in flight it completes BUSY. R174: in RUNNING a QUIESCE in flight whose deadline has passed
completes DEADLINE with its elapsed ticks, the events in the intake (one under decision counted) and the Hold Queue
depth, and what waited for it follows (R179); before that nothing happens (log entry 2; log entry 28 for the ticks
reported). R177: in RUNNING, every item read and every buffer write completed, the STATS_READ in flight completes OK
with the bytes written and local time at its execution; before that nothing happens (log entry 2). -/
def Obligations.DeferredCommandsStartAndComplete : Prop :=
  (∀ (s : State) (g : Geometry) (tag deadline : Word), Ready s g → FieldsInRange s (.quiesce deadline) →
     (inFlight .quiesce s = false → exec (.quiesce tag deadline) s = .next (State.commandJoined g { s with
       intakeOpen := false, deferred := s.deferred ++ [⟨tag, .quiesce deadline.toNat 0⟩] }))
     ∧ (inFlight .quiesce s = true → exec (.quiesce tag deadline) s = .next
         (s.commandDone g [] (.completion 0x0F tag .busy 0 0 0))))
  ∧ (∀ (s : State) (g : Geometry) (tag : Word) (f : StatsReadFields), Ready s g → FieldsInRange s (.statsRead f) →
       let items := ([Section6.routes, .inputs, .outputs, .link, .rings, .global].filter
         fun x => f.sections.getLsbD x.code).flatMap sectionItems
       (inFlight .statsRead s = false → exec (.statsRead tag f) s = .next (State.commandJoined g { s with
         deferred := s.deferred ++ [⟨tag, .statsRead {
           clear := f.clear == 1, address := f.address.toNat, todo := items, record := [], written := 0
           started := s.localTime }⟩] }))
       ∧ (inFlight .statsRead s = true → exec (.statsRead tag f) s = .next
           (s.commandDone g [] (.completion 0x11 tag .busy 0 0 0))))
  ∧ (∀ (s : State) (g : Geometry) (tag : Word), Ready s g →
       (inFlight .fence s = false → exec (.fence tag) s = .next (State.commandJoined g { s with
         deferred := s.deferred ++ [⟨tag, .fence s.deferred.length (s.deferred.map fun d => d.job.kind)⟩] }))
       ∧ (inFlight .fence s = true → exec (.fence tag) s = .next
           (s.commandDone g [] (.completion 0x13 tag .busy 0 0 0))))
  ∧ (∀ (s : State) (q : Word) (deadline elapsed : Nat), s.part = .running →
     findDeferred .quiesce s = some ⟨q, .quiesce deadline elapsed⟩ →
     (deadline ≤ elapsed → exec .quiesceDeadline s = .next (State.settled { s with
       geom := s.geom.map (Geometry.complete [.completion 0x0F q .deadline (BitVec.ofNat 32 elapsed)
         (BitVec.ofNat 32 (s.intake.length + s.decisions)) (BitVec.ofNat 32 s.hold.length)])
       deferred := leaveDeferred .quiesce s.deferred }))
     ∧ (elapsed < deadline → exec .quiesceDeadline s = .next s))
  ∧ (∀ (s : State) (q : Word) (j : StatsJob), s.part = .running →
       findDeferred .statsRead s = some ⟨q, .statsRead j⟩ →
       (j.todo = [] → s.bufWrites = [] → exec .statsReadDone s = .next (State.settled { s with
         geom := s.geom.map (Geometry.complete [.completion 0x11 q .ok (BitVec.ofNat 32 j.written)
           (BitVec.ofNat 32 j.started) (BitVec.ofNat 32 (j.started / 2 ^ 32))])
         deferred := leaveDeferred .statsRead s.deferred }))
       ∧ (j.todo ≠ [] ∨ s.bufWrites ≠ [] → exec .statsReadDone s = .next s))

/-- R10, R174, R175: OPEN opens the intake and completes OK with the condition before and whether it ended a QUIESCE;
a QUIESCE in flight completes ABORTED first, with its elapsed ticks, the events in the intake (one under decision
counted) and the Hold Queue depth. -/
def Obligations.OpenReopensIntake : Prop :=
  ∀ (s : State) (g : Geometry) (tag : Word), Ready s g →
    let was : Word := if s.intakeOpen then 1 else 0
    (inFlight .quiesce s = false → exec (.openIntake tag) s = .next
      (State.commandDone g [] (.completion 0x10 tag .ok was 0 0) { s with intakeOpen := true }))
    ∧ ∀ (q : Word) (deadline elapsed : Nat), findDeferred .quiesce s = some ⟨q, .quiesce deadline elapsed⟩ →
        exec (.openIntake tag) s = .next (State.commandDone g
          [.completion 0x0F q .aborted (BitVec.ofNat 32 elapsed)
            (BitVec.ofNat 32 (s.intake.length + s.decisions)) (BitVec.ofNat 32 s.hold.length)]
          (.completion 0x10 tag .ok was 1 0)
          { s with intakeOpen := true, deferred := leaveDeferred .quiesce s.deferred })

/-! ### STATS_READ, FAULTS, FENCE (10.9, 10.10, 11.5) -/

/-- R177, R190: in RUNNING the next item of a STATS_READ in flight is read as it stands: the command goes on to the
items after it, and the buffer writes then complete, of the bytes of 13.3, are issued (one for each header and each
record: log entry 13). R188: under the clear flag the counter read is 0 afterwards and the peak is the Hold Queue's
depth; without it both stay as they were; no other counter and no other state changes. -/
def Obligations.StatsItemReadClearsItsCounterAlone : Prop :=
  ∀ (s : State) (board : BitVec 16) (j : StatsJob) (item : StatsItem) (rest : List StatsItem),
    s.part = .running → statsJob s = some j → j.todo = item :: rest →
    let out := j.read item rest (item.patches board s) s.localTime
    let u : State := { s with
      bufWrites := s.bufWrites ++ out.1
      deferred := s.deferred.map fun d => match d.job with
        | .statsRead _ => { d with job := .statsRead out.2 }
        | _ => d }
    let t : State := if j.clear = true then item.clearIn u else u
    exec (.statsItemRead board) s = .next t
      ∧ statsJob t = some out.2 ∧ out.2.todo = rest
      ∧ item.counter t = (if j.clear then (item.counter s).map fun _ => 0 else item.counter s)
      ∧ (∀ other : StatsItem, other ≠ item → other.counter t = other.counter s)
      ∧ t = { u with
          routes := Vector.ofFn fun e => { s.routes[e] with counters := t.routes[e].counters }
          inputs := Vector.ofFn fun n => { s.inputs[n] with counters := t.inputs[n].counters }
          outputs := Vector.ofFn fun n => { s.outputs[n] with counters := t.outputs[n].counters }
          link := { s.link with counters := t.link.counters }
          ringCounters := t.ringCounters, unrouted := t.unrouted, discardedAtStop := t.discardedAtStop
          holdCounters := { t.holdCounters with
            peak := if item = .holdPeak ∧ j.clear = true then s.hold.length else s.holdCounters.peak } }

/-- 13.3, R190 to R193: what an item of a STATS_READ lays over the record of its section in assembly, from the state
at its read: each field named stands at its offset, the unnamed bytes between are 0, and no byte outside changes.
Times show their low 64 bits (log entry 4); the level on a released pin is the board's (log entry 25). A record starts
as zeros, and a section header shows local time at the read of its first item, the section code and its size. -/
def Obligations.StatsRecordsShowState : Prop :=
  ∀ (s : State) (board : BitVec 16) (r : List Byte),
    let laid := fun item : StatsItem => pokeAll r (item.patches board s)
    let shows := fun (item : StatsItem) (offset n value : Nat) => fieldAt (laid item) offset n = value
    let bits := fun (item : StatsItem) (bs : List Bool) =>
      (List.range 8).map (fun i => ((laid item).getD 3 0).getLsbD i) = bs ++ List.replicate (8 - bs.length) false
    let keeps := fun (item : StatsItem) (spans : List (Nat × Nat)) =>
      (laid item).length = r.length
        ∧ ∀ i : Nat, (∀ p ∈ spans, ¬ (p.1 ≤ i ∧ i < p.1 + p.2)) → (laid item).getD i 0 = r.getD i 0
    let signed := fun i : Int => (i % 2 ^ 64).toNat
    let l := s.link
    (∀ e : Fin 256, r.length = 48 →
      let x := StatsItem.routeGroup e
      let c := s.routes[e].config
      shows x 0 2 c.outputs.toNat ∧ shows x 2 1 c.rings.toNat ∧ shows x 3 1 c.kinds.toNat
        ∧ shows x 4 1 s.routes[e].state.code ∧ shows x 5 1 c.forward.toNat ∧ shows x 6 1 c.late.code ∧ shows x 7 1 0
        ∧ shows x 8 4 c.latency.toNat ∧ shows x 12 2 c.width.toNat ∧ shows x 14 2 0 ∧ keeps x [(0, 16)]
        ∧ ∀ k : Fin 8, shows (.routeCounter e k) (16 + 4 * k.val) 4 (s.routes[e].counters.get k).toNat
            ∧ keeps (.routeCounter e k) [(16 + 4 * k.val, 4)])
    ∧ (∀ n : Fin 16, r.length = 64 →
      let x := StatsItem.inputGroup n
      let i := s.inputs[n]
      shows x 0 1 i.config.mode.code ∧ shows x 1 1 i.config.announce.toNat ∧ shows x 2 1 i.config.source.toNat
        ∧ bits x [i.raw.isHigh, i.accepted.isHigh, i.reported.isHigh, i.candidate.isSome, i.spacingEnd.isSome, i.suppressed]
        ∧ shows x 4 2 i.config.filter.toNat ∧ shows x 6 2 0 ∧ shows x 8 4 i.config.spacing.toNat ∧ shows x 12 4 0
        ∧ shows x 16 8 (i.candidate.getD 0 % 2 ^ 64) ∧ shows x 24 8 (i.spacingEnd.getD 0 % 2 ^ 64) ∧ keeps x [(0, 32)]
        ∧ ∀ k : Fin 5, shows (.inputCounter n k) (32 + 4 * k.val) 4 (i.counters.get k).toNat
            ∧ keeps (.inputCounter n k) [(32 + 4 * k.val, 4)])
    ∧ (∀ n : Fin 16, r.length = 48 →
      let x := StatsItem.outputGroup n
      let o := s.outputs[n]
      let level : Level := if board.getLsbD n.val then .high else .low
      shows x 0 1 o.mode.code ∧ shows x 1 1 o.drive.code ∧ shows x 2 1 o.polarity.code
        ∧ bits x [o.resting.isHigh, o.pulse.isSome, o.shown.isHigh, o.pinValue.isHigh, o.driven, (o.sampled level).isHigh]
        ∧ shows x 4 4 0 ∧ shows x 8 8 (signed (o.pulse.getD 0)) ∧ keeps x [(0, 16)]
        ∧ ∀ k : Fin 5, shows (.outputCounter n k) (16 + 4 * k.val) 4 (o.counters.get k).toNat
            ∧ keeps (.outputCounter n k) [(16 + 4 * k.val, 4)])
    ∧ (r.length = 128 →
      shows .linkSession 0 1 l.session.code ∧ shows .linkSession 1 1 l.reason.code ∧ shows .linkSession 2 2 l.own.toNat
        ∧ shows .linkSession 4 2 l.recorded.toNat ∧ shows .linkSession 6 1 (l.params.retryLimit % 2 ^ 8)
        ∧ shows .linkSession 8 8 (l.params.openTimeout % 2 ^ 64) ∧ shows .linkSession 16 4 (l.params.ackTimeout % 2 ^ 32)
        ∧ shows .linkSession 20 4 (l.params.idleTimeout % 2 ^ 32) ∧ shows .linkSession 24 4 (l.params.alignInterval % 2 ^ 32)
        ∧ shows .linkSession 28 4 (l.params.maxDelay % 2 ^ 32) ∧ keeps .linkSession [(0, 7), (8, 24)]
        ∧ shows .linkTransmit 32 1 ((l.window.length + l.waiting.length) % 2 ^ 8)
        ∧ shows .linkTransmit 33 1 (l.window.length % 2 ^ 8) ∧ shows .linkTransmit 34 1 l.nextSeq.toNat
        ∧ shows .linkTransmit 35 1 ((match l.window with | [] => 0 | w :: _ => w.retry) % 2 ^ 8)
        ∧ keeps .linkTransmit [(32, 4)] ∧ shows .linkReceive 36 1 l.expected.toNat ∧ keeps .linkReceive [(36, 1)]
        ∧ shows .linkAlignment 7 1 l.fresh.toNat ∧ shows .linkAlignment 37 1 l.outstanding.isSome.toNat
        ∧ shows .linkAlignment 38 1 (match l.outstanding with | some p => p.1.toNat | none => 0)
        ∧ shows .linkAlignment 40 8 (signed l.offset) ∧ shows .linkAlignment 48 8 (signed l.lastDelay)
        ∧ keeps .linkAlignment [(7, 1), (37, 2), (40, 16)]
        ∧ ∀ k : Fin 18, shows (.linkCounter k) (56 + 4 * k.val) 4 (l.counters.get k).toNat
            ∧ keeps (.linkCounter k) [(56 + 4 * k.val, 4)])
    ∧ (r.length = 240 →
      shows .ringsSelector 0 1 (match noticeRing s with | none => 255 | some ring => ring.val) ∧ keeps .ringsSelector [(0, 1)]
        ∧ shows .ringsDeferred 1 1 ((if inFlight .linkOpen s then 1 else 0) + (if inFlight .quiesce s then 2 else 0)
            + (if inFlight .statsRead s then 4 else 0) + (if inFlight .fence s then 8 else 0))
        ∧ keeps .ringsDeferred [(1, 1)]
        ∧ (∀ (g : Geometry) (k : Fin 6), s.geom = some g →
            let x := StatsItem.ringGroup k
            let a := 8 + 32 * k.val
            let ring := fun (present : Bool) (size : Nat) (base : Quad) (producer fill consumer loss : Nat) =>
              shows x a 1 present.toNat ∧ shows x (a + 1) 3 0 ∧ shows x (a + 4) 4 (size % 2 ^ 32)
                ∧ shows x (a + 8) 8 base.toNat ∧ shows x (a + 16) 4 (producer % 2 ^ 32) ∧ shows x (a + 20) 4 (fill % 2 ^ 32)
                ∧ shows x (a + 24) 4 (consumer % 2 ^ 32) ∧ shows x (a + 28) 4 loss
            let of := fun q : OutRing =>
              ring (q.size != 0) q.size q.base q.producer q.fill q.consumer q.loss.toNat
            (k = 0 → ring true g.cmd.size g.cmd.base g.cmd.producer 0 g.cmd.consumer 0) ∧ (k = 1 → of g.compl)
              ∧ (∀ e : Fin 4, k.val = e.val + 2 → of g.event[e]) ∧ keeps x [(a, 32)])
        ∧ ∀ k : Fin 10, shows (.ringsCounter k) (200 + 4 * k.val) 4 (s.ringCounters.get k).toNat
            ∧ keeps (.ringsCounter k) [(200 + 4 * k.val, 4)])
    ∧ (r.length = 256 →
      (∀ k : Fin 8, shows (.globalCounter k) (4 * k.val) 4 (globalCount s k).toNat ∧ keeps (.globalCounter k) [(4 * k.val, 4)])
        ∧ shows .holdDepth 32 1 (s.hold.length % 2 ^ 8) ∧ keeps .holdDepth [(32, 1)]
        ∧ shows .holdPeak 33 1 (s.holdCounters.peak % 2 ^ 8) ∧ keeps .holdPeak [(33, 1)]
        ∧ shows .faultPin 34 1 (faultAsserted s).toNat ∧ keeps .faultPin [(34, 1)]
        ∧ ∀ k : Fin 9,
            let x := StatsItem.faultClass k
            let a := 40 + 24 * k.val
            let f := s.faults[k]
            shows x a 1 f.sticky.toNat ∧ shows x (a + 1) 1 f.enabled.toNat ∧ shows x (a + 2) 1 f.armed.toNat
              ∧ shows x (a + 3) 1 0 ∧ shows x (a + 4) 2 f.count.toNat ∧ shows x (a + 6) 2 0
              ∧ shows x (a + 8) 4 (f.firstContext.getD 0).toNat ∧ shows x (a + 12) 4 0
              ∧ shows x (a + 16) 8 (f.firstTime.getD 0 % 2 ^ 64) ∧ keeps x [(a, 24)])
    ∧ (∀ (time : Nat) (x : Section6),
        let header := sectionHeader time x
        header.length = 16 ∧ fieldAt header 0 8 = time % 2 ^ 64 ∧ fieldAt header 8 1 = x.code ∧ fieldAt header 9 3 = 0
          ∧ fieldAt header 12 4 = x.size)
    ∧ (∀ (j : StatsJob) (item : StatsItem) (rest : List StatsItem) (patches : List (Nat × List Byte)) (time : Nat),
        let a := if item.opens then j.address + 16 else j.address
        let record := pokeAll (if j.record = [] then List.replicate item.section.recordLength 0 else j.record) patches
        j.read item rest patches time =
          ((if item.opens then [⟨j.address, sectionHeader time item.section⟩] else [])
             ++ (if item.closes then [⟨a, record⟩] else []),
           { j with
             address := if item.closes then a + record.length else a, todo := rest
             record := if item.closes then [] else record }))

/-- R177, R190 and the section sizes of 13.3: reading every item of a STATS_READ's sections, one after another, issues
buffer writes that fill exactly the sizes of the selected sections, one after another from the buffer address. -/
def Obligations.StatsReadFillsItsSections : Prop :=
  ∀ (s : State) (j : StatsJob) (set : Byte) (boards : List (BitVec 16)), s.part = .running → statsJob s = some j →
    j.todo = itemsOf (sectionsOf set) → j.record = [] → boards.length = j.todo.length →
    let t := boards.foldl (fun u board => statsItemRead board u) s
    ∃ (writes : List BufferWrite) (j1 : StatsJob), t.bufWrites = s.bufWrites ++ writes
      ∧ tiles j.address (sectionsSize set) writes ∧ statsJob t = some j1 ∧ j1.todo = []

/-! ### The Router (2.2) -/

/-- R9, R17 to R20, R41: the Router takes the oldest event of the intake. With the entry UNUSED it counts the event in
the unrouted counter of its origin, at the lookup; SUSPENDED in suppressed; a kind not accepted, and a FALL that conversion consumes,
in filtered. Nothing else becomes of the event. No event is taken outside RUNNING, with a decision that waits for the
Release Unit, or from an empty intake (log entry 2). A pause named beyond the end of the decision is none; the decision
on an UNUSED entry ends at the lookup, so that no pause falls in it. -/
def Obligations.RouterEndsEventsNotRouted : Prop :=
  ∀ (s : State) (e : Event) (rest : List Event) (pause : Option DecisionStage),
    let entry := s.routes[e.source.toNat]'e.source.isLt
    let count := fun counters : RouteCounters =>
      (State.settled { s with
        intake := rest
        routes := s.routes.set e.source.toNat { entry with counters := counters } e.source.isLt } : State)
    let takes := s.part = .running ∧ s.deciding = none ∧ s.handover = none ∧ s.intake = e :: rest
    let accepted := entry.config.kinds.getLsbD e.kind.code = true
    (takes → entry.state = .unused → exec (.routerTake pause) s = .next (State.settled { s with
      intake := rest
      unrouted := match e.origin with
        | .line _ => { s.unrouted with line := bump s.unrouted.line }
        | .link => { s.unrouted with link := bump s.unrouted.link }
        | .host _ => { s.unrouted with host := bump s.unrouted.host } }))
    ∧ (takes → entry.state = .suspended → pause ≠ some .lookedUp →
        exec (.routerTake pause) s = .next (count { entry.counters with suppressed := bump entry.counters.suppressed }))
    ∧ (takes → entry.state = .active → pause ≠ some .lookedUp →
        (¬ accepted ∨ (e.kind = .fall ∧ entry.config.width ≠ 0)) →
        exec (.routerTake pause) s = .next (count { entry.counters with filtered := bump entry.counters.filtered }))
    ∧ (s.part ≠ .running ∨ s.handover ≠ none ∨ (s.deciding = none ∧ s.intake = []) →
        exec (.routerTake pause) s = .next s)

/-- R22, R23, R56, R121, R124: an event to be forwarded. With the session UP and fewer than 32 frames queued its frame
is appended to the transmit queue, enters the window at once if that holds fewer than 16, and starts the ack timer of
an empty window; link_sent counts it, and the tag of a HOST event is marked forwarded. With the session not UP, and
with the queue full, link_dropped counts it, and a full queue raises LINK_BACKLOG with the source ID. -/
def Obligations.ForwardQueuesOrDropsFrame : Prop :=
  ∀ (s : State) (e : Event),
    let l := s.link
    let entry := s.routes[e.source.toNat]'e.source.isLt
    let counted := fun counters : RouteCounters =>
      s.routes.set e.source.toNat { entry with counters := counters } e.source.isLt
    let frame : TxEvent := {
      source := e.source, kind := e.kind, capture := e.capture, coalesced := e.flags.coalesced
      refresh := e.flags.refresh }
    let sent := counted { entry.counters with linkSent := bump entry.counters.linkSent }
    let dropped := counted { entry.counters with linkDropped := bump entry.counters.linkDropped }
    let tags := match e.origin with
      | .host tag => s.tags.map fun r => if r.tag = tag then { r with forwarded := true } else r
      | .line _ => s.tags
      | .link => s.tags
    (l.session = .up → l.Sound → l.window.length < 16 → forward e s = { s with
      routes := sent, tags := tags
      link := { l with
        window := l.window ++ [{ event := frame, seq := l.nextSeq, retry := 0, isPending := true, sentBefore := false }]
        nextSeq := l.nextSeq + 1
        ackTimer := if l.window = [] then some 0 else l.ackTimer } })
    ∧ (l.session = .up → l.window.length = 16 → l.waiting.length < 16 → forward e s = { s with
        routes := sent, tags := tags, link := { l with waiting := l.waiting ++ [frame] } })
    ∧ (l.session = .up → 32 ≤ l.window.length + l.waiting.length → forward e s = { s with
        routes := dropped, raises := s.raises ++ [⟨.linkBacklog, e.source.setWidth 32⟩] })
    ∧ (l.session ≠ .up → forward e s = { s with routes := dropped })

/-- R20 to R28, R38, R59: the Router's decision on an event that is routed, made in one step. A RISE under a width W
becomes PULSE(W); routed counts the event, and an event of origin LINE or HOST is forwarded when the entry says so.
With no local destination the decision ends. Else, with R = capture time + L: an UNALIGNED event (R = now), and one
with R reached and L = 0, is handed to the Release Unit; one with R reached and L > 0 raises DEADLINE and is handed
over late or discarded, as the entry's policy says, and counted; one with R in the future enters the Hold Queue behind
every entry of an R no later, or, with 128 entries held, is dropped and counted, and HOLD_FULL is raised. -/
def Obligations.RouterDecidesRoutedEvents : Prop :=
  ∀ (s : State) (e0 : Event) (rest : List Event),
    let source := e0.source.toNat
    let entry := s.routes[source]'e0.source.isLt
    let c := entry.config
    let e := if e0.kind = .rise ∧ c.width ≠ 0 then { e0 with kind := .pulse c.width } else e0
    let routed : State := { s with
      intake := rest
      routes := s.routes.set source
        { entry with counters := { entry.counters with routed := bump entry.counters.routed } } e0.source.isLt }
    let u := if c.forward = true ∧ e.origin ≠ .link then forward e routed else routed
    s.part = .running → s.deciding = none → s.handover = none → s.intake = e0 :: rest → entry.state = .active →
    c.kinds.getLsbD e0.kind.code = true → ¬ (e0.kind = .fall ∧ c.width ≠ 0) →
    LocalOutcome c e u fun t => exec (.routerTake none) s = .next t

/-- R18, R32, R33, R39, R50: other steps may fall inside the Router's decision on an event whose entry is SUSPENDED or
ACTIVE at the lookup: after the lookup, after the event is counted in routed, and after its link forward. Each part of the decision leaves the event under decision with the
reading of its route entry made at the lookup; the next ROUTER_TAKE goes on from there on that reading, whatever a
ROUTE_ command has made of the entry since, and counts in the entry's counters as they then stand. So an event of a
source ID whose entry has since been cleared and purged is still inserted, handed over, or counted, as the reading
says. -/
def Obligations.RouterDecisionMayWait : Prop :=
  (∀ (s : State) (e : Event) (rest : List Event),
     let entry := s.routes[e.source.toNat]'e.source.isLt
     let lookedUp : State := { s with
       intake := rest, deciding := some ⟨e, decide (entry.state = .suspended), entry.config, .lookedUp⟩ }
     s.part = .running → s.deciding = none → s.handover = none → s.intake = e :: rest → entry.state ≠ .unused →
     exec (.routerTake (some .lookedUp)) s = .next lookedUp.settled
     ∧ ∀ pause, pause ≠ some .lookedUp → exec (.routerTake pause) s = exec (.routerTake pause) lookedUp)
  ∧ (∀ (s : State) (d : Deciding) (pause : Option DecisionStage), s.part = .running → s.handover = none →
       s.deciding = some d →
       let entry := s.routes[d.event.source.toNat]'d.event.source.isLt
       let c := d.config
       let v : State := { s with deciding := none }
       let count := fun counters : RouteCounters => ({ v with
         routes := s.routes.set d.event.source.toNat { entry with counters := counters } d.event.source.isLt } : State)
       let accepted := c.kinds.getLsbD d.event.kind.code = true
       let consumed := d.event.kind = .fall ∧ c.width ≠ 0
       let e := if d.event.kind = .rise ∧ c.width ≠ 0 then { d.event with kind := .pulse c.width } else d.event
       let forwarded := fun (e : Event) (u : State) => if c.forward = true ∧ e.origin ≠ .link then forward e u else u
       let goesOn := fun t : State => exec (.routerTake pause) s = .next t
       (d.stage = .lookedUp →
         (d.suspended = true →
             goesOn (count { entry.counters with suppressed := bump entry.counters.suppressed }).settled)
         ∧ (d.suspended = false → ¬ accepted ∨ consumed →
             goesOn (count { entry.counters with filtered := bump entry.counters.filtered }).settled)
         ∧ (d.suspended = false → accepted → ¬ consumed →
           let routed := count { entry.counters with routed := bump entry.counters.routed }
           (pause = some .counted →
             goesOn (State.settled { routed with deciding := some { d with event := e, stage := .counted } }))
           ∧ (pause = some .forwarded → goesOn (State.settled { forwarded e routed with
               deciding := some { d with event := e, stage := .forwarded } }))
           ∧ (pause = none ∨ pause = some .lookedUp → LocalOutcome c e (forwarded e routed) goesOn)))
       ∧ (d.stage = .counted →
           (pause = some .forwarded → goesOn (State.settled { forwarded d.event v with
             deciding := some { d with stage := .forwarded } }))
           ∧ (pause ≠ some .forwarded → LocalOutcome c d.event (forwarded d.event v) goesOn))
       ∧ (d.stage = .forwarded → LocalOutcome c d.event v goesOn))

/-- R8, R80, R81, R161, R167: other steps may fall between two offers of one set. A REFRESH, or a ROUTE_SET with
REFRESH, that makes k offers and waits is under execution, with the lines whose turn has not come and its counts so
far, and no command is read meanwhile (R157); the same step again makes further offers, each answered on the intake as
it then stands, and after the last the command completes with the counts of all. In STOPPING the lines left make no
event and count as refused; in HALTED nothing more happens (R160). The announce at an entry to UP likewise: the line
whose turn it is offers its STATE event, a refusal is counted on it, and a line whose mode has become OFF is passed
over (log entry 11); the offers of one step are made one after another, and outside RUNNING none is made. -/
def Obligations.OffersOfOneSetMayBeParted : Prop :=
  (∀ (s : State) (g : Geometry) (tag set : Word) (f : RouteSetFields) (n : Nat), Ready s g →
     let begun := fun (c : Command) (lines : List (Fin 16)) (u : State) =>
       let first := lines.take n
       let made := s.acceptedLines first
       ({ State.afterTake g [] (u.stateEventsMade made) with
          cmdRead := false
          executing := some {
            tag := tag, command := c, lines := lines.drop n, made := made.length, refused := first.length - made.length
            closed := !s.intakeOpen && !first.isEmpty } } : State)
     (FieldsInRange s (.refresh set) → exec (.refresh tag set (some n)) s = .next (begun (.refresh set)
       ((List.finRange 16).filter fun n => set.getLsbD n.val = true ∧ s.inputs[n].config.mode ≠ .off) s))
     ∧ (FieldsInRange s (.routeSet f) → f.refresh = 1 → exec (.routeSet tag f (some n)) s = .next (begun (.routeSet f)
       ((List.finRange 16).filter fun n =>
         s.inputs[n].config.mode ≠ .off ∧ s.inputs[n].config.source = f.source.setWidth 8) (replaceRoute f s))))
  ∧ (∀ (s : State) (g : Geometry) (w : OfferSet), s.executing = some w → s.geom = some g →
       ((∃ set, w.command = .refresh set) ∨ ∃ f, w.command = .routeSet f ∧ f.refresh = 1) →
       let after := fun n : Nat =>
         let first := w.lines.take n
         let made := s.acceptedLines first
         ({ w with
            lines := w.lines.drop n, made := w.made + made.length, refused := w.refused + (first.length - made.length)
            closed := w.closed || (!s.intakeOpen && !first.isEmpty) } : OfferSet)
       (∀ n, s.part = .running → exec (takeUpTo (some n) w.tag w.command) s = .next
         { s.stateEventsMade (s.acceptedLines (w.lines.take n)) with executing := some (after n) })
       ∧ (s.part = .running → exec (takeUpTo none w.tag w.command) s = .next
           (State.offersDone g (after w.lines.length).record
             { s.stateEventsMade (s.acceptedLines w.lines) with executing := none }))
       ∧ (∀ pause, s.part = .stopping → exec (takeUpTo pause w.tag w.command) s = .next
           (State.offersDone g
             (OfferSet.record { w with
               refused := w.refused + w.lines.length, closed := w.closed || !w.lines.isEmpty }) s))
       ∧ (∀ pause, s.part ≠ .running → s.part ≠ .stopping → exec (takeUpTo pause w.tag w.command) s = .next s))
  ∧ (∀ (s : State) (number : Byte) (t1 t2 t3 : Quad), s.part = .running →
       let offers := fun pause : Option Nat => exec (.rxEcho number t1 t2 t3 (.announce pause))
       (∀ (n : Fin 16) (rest : List (Fin 16)), s.announcing = n :: rest →
         let l := s.inputs[n]
         let v : State := { s with announcing := rest }
         (l.config.mode = .off → offers (some 1) s = .next v)
         ∧ (l.config.mode ≠ .off → s.intakeOpen = true → s.intake.length < 64 →
             offers (some 1) s = .next (v.stateEventsMade [n]))
         ∧ (l.config.mode ≠ .off → s.intakeOpen = true → 64 ≤ s.intake.length → offers (some 1) s = .next { v with
             inputs := s.inputs.set n { l with counters := { l.counters with lost := bump l.counters.lost } }
             raises := s.raises ++ [⟨.intakeFull, BitVec.ofNat 32 n.val⟩] })
         ∧ (l.config.mode ≠ .off → s.intakeOpen = false → offers (some 1) s = .next { v with
             inputs := s.inputs.set n
               { l with counters := { l.counters with refusedClosed := bump l.counters.refusedClosed } } }))
       ∧ (∀ (k : Nat) (t : State), offers (some 1) s = .next t → offers (some (k + 1)) s = offers (some k) t)
       ∧ offers none s = offers (some s.announcing.length) s
       ∧ (s.announcing = [] → offers (some 1) s = .next s) ∧ offers (some 0) s = .next s)
  ∧ (∀ (s : State) (number : Byte) (t1 t2 t3 : Quad) (pause : Option Nat), s.part ≠ .running →
       exec (.rxEcho number t1 t2 t3 (.announce pause)) s = .next s)

/-! ### The Release Unit (3.3, 3.4) -/

/-- R40, R41, R43: in RUNNING with no delivery in progress, HOLD_RELEASE takes the head of the Hold Queue once its
release time is reached, and HANDOVER_TAKE takes the hand-over that waits; the delivery time is now. Neither takes
anything while a delivery is in progress, or when nothing waits for it (log entry 2). -/
def Obligations.ReleaseUnitTakesDueHeadOrHandover : Prop :=
  ∀ (s : State),
    (∀ (h : HoldEntry) (rest : List HoldEntry), s.part = .running → s.delivery = none → s.hold = h :: rest →
      (h.release ≤ s.localTime → exec .holdRelease s = .next { s with
        hold := rest
        holdCounters := { s.holdCounters with released := bump s.holdCounters.released }
        delivery := some { event := h.event, outputs := h.outputs, rings := h.rings, release := h.release
                           late := false, time := s.localTime, shift := 0 } })
      ∧ (s.localTime < h.release → exec .holdRelease s = .next s))
    ∧ (∀ h : Handover, s.part = .running → s.delivery = none → s.handover = some h →
      exec .handoverTake s = .next { s with
        handover := none
        delivery := some { event := h.event, outputs := h.outputs, rings := h.rings, release := h.release
                           late := h.late, time := s.localTime, shift := 0 } })
    ∧ (s.delivery ≠ none ∨ s.part ≠ .running →
        exec .holdRelease s = .next s ∧ exec .handoverTake s = .next s)
    ∧ (s.hold = [] → exec .holdRelease s = .next s)
    ∧ (s.handover = none → exec .handoverTake s = .next s)

/-- R44, R68, R88 to R90: the Output Unit takes the request of the delivery in progress for a line of its output set.
On a ROUTED line in RUNNING a level event and a pulse act as on a HOST line, a pulse measured from the delivery time
and the TIME_SET steps since (one that has ended already ends in the take); on any other line, and outside RUNNING,
the request is counted in blocked; a MARK has no effect. The delivery ends with its last request and record, and what
waited for that completes. R91, R86: once local time has reached the end of an active pulse it ends and the line shows
its resting level; before that, and with no pulse, nothing happens (log entry 2). No counter changes. -/
def Obligations.OutputUnitTakesRequestsAndEndsPulses : Prop :=
  (∀ (s : State) (d : Delivery) (n : Fin 16), s.delivery = some d → d.outputs.getLsbD n.val = true →
     let o := s.outputs[n]
     let left := d.outputs &&& ~~~(BitVec.ofNat 16 (2 ^ n.val))
     let taken := fun o1 : OutputLine => (State.settled { s with
       outputs := s.outputs.set n o1
       delivery := if left = 0 ∧ d.rings = 0 then none else some { d with outputs := left } } : State)
     let level : Option Level := match d.event.kind with
       | .rise => some .high
       | .fall => some .low
       | .state l => some l
       | .pulse _ => none
       | .mark _ => none
     let acts := s.part = .running ∧ o.mode = .routed
     (∀ word, d.event.kind = .mark word → exec (.applicationRequest n) s = .next (taken o))
     ∧ (¬ acts → (∀ word, d.event.kind ≠ .mark word) → exec (.applicationRequest n) s = .next
         (taken { o with counters := { o.counters with blocked := bump o.counters.blocked } }))
     ∧ (∀ l, acts → level = some l → o.pulse ≠ none → exec (.applicationRequest n) s = .next (taken { o with
         resting := l, pulse := none
         counters := { o.counters with truncated := bump o.counters.truncated, applied := bump o.counters.applied } }))
     ∧ (∀ l, acts → level = some l → o.pulse = none → o.resting = l → exec (.applicationRequest n) s = .next
         (taken { o with counters := { o.counters with redundant := bump o.counters.redundant } }))
     ∧ (∀ l, acts → level = some l → o.pulse = none → o.resting ≠ l → exec (.applicationRequest n) s = .next
         (taken { o with resting := l, counters := { o.counters with applied := bump o.counters.applied } }))
     ∧ (∀ width : Half, acts → d.event.kind = .pulse width →
         let finish := (d.time : Int) + d.shift + (width.toNat : Int)
         exec (.applicationRequest n) s = .next (taken { o with
           pulse := if finish ≤ (s.localTime : Int) then none else some finish
           counters := if o.pulse = none then { o.counters with applied := bump o.counters.applied }
             else { o.counters with retriggered := bump o.counters.retriggered } })))
  ∧ (∀ (s : State) (n : Fin 16),
       (∀ finish : Int, s.outputs[n].pulse = some finish → finish ≤ (s.localTime : Int) →
         exec (.pulseEnd n) s = .next { s with outputs := s.outputs.set n { s.outputs[n] with pulse := none } })
       ∧ (∀ finish : Int, s.outputs[n].pulse = some finish → (s.localTime : Int) < finish →
           exec (.pulseEnd n) s = .next s)
       ∧ (s.outputs[n].pulse = none → exec (.pulseEnd n) s = .next s))

/-- R86: a line shows the opposite of its resting level while a pulse is active, and its resting level else; the pin
value is the shown level under ACTIVE_HIGH and its inverse under ACTIVE_LOW; a DISABLED line releases its pin,
PUSH_PULL drives it to the pin value, and OPEN_DRAIN drives it low for a pin value of LOW and releases it for HIGH.
R99: the pin as sampled is the pin value where the pin is driven, and the level the board gives where it is released. -/
def Obligations.OutputPinsShowTheirLines : Prop :=
  ∀ (o : OutputLine) (board : Level),
    let inverse := fun l : Level => if l = .low then Level.high else Level.low
    let shown := if o.pulse = none then o.resting else inverse o.resting
    let value := if o.polarity = .activeHigh then shown else inverse shown
    o.shown = shown ∧ o.pinValue = value
      ∧ (o.mode = .disabled → o.pin = .released)
      ∧ (o.mode ≠ .disabled → o.drive = .pushPull → o.pin = if value = .low then .drivenLow else .drivenHigh)
      ∧ (o.mode ≠ .disabled → o.drive = .openDrain → o.pin = if value = .low then .drivenLow else .released)
      ∧ (o.driven = true ↔ o.pin ≠ .released)
      ∧ (o.driven = true → o.sampled board = value) ∧ (o.driven = false → o.sampled board = board)

/-! ### Rings (9.3, 9.4) -/

/-- R150, R151: the Ring Engine takes a record for a present event ring. With two free slots or more it is assigned
the slot at the fill index, behind a LOSS record of the loss count when that is not 0; with fewer it is lost, the loss
count and the lost counter count it, and RING_LOSS is raised with the ring number when the loss count was 0. An absent
ring takes no record. R44, R45, R118, R150, R152, R183: in RUNNING and STOPPING the Ring Engine takes the delivery's
EVENT record for a ring of its ring set (with origin, flags, LATE, capture time, delivery time, and lateness saturated
at 32 bits; after a backward TIME_SET the lateness is free: log entry 16), the Fault Unit's oldest notice, and the
Link Controller's oldest notice, the last two for the notice ring. -/
def Obligations.RingEngineTakesRecordsOfPosters : Prop :=
  (∀ (s : State) (g : Geometry) (ring : Fin 4) (record : HostRecord), s.geom = some g →
     let r := g.event[ring]
     let withRing := fun r1 : OutRing => some { g with event := g.event.set ring r1 }
     (r.size = 0 → takeRecord ring record s = s)
     ∧ (r.size ≠ 0 → 2 ≤ r.free → takeRecord ring record s = { s with
         geom := withRing
           (if r.loss = 0 then r.assignAll [record] else { r.assignAll [.loss r.loss, record] with loss := 0 }) })
     ∧ (r.size ≠ 0 → r.free < 2 → takeRecord ring record s = { s with
         geom := withRing { r with loss := bump r.loss }
         ringCounters := { s.ringCounters with
           lost := s.ringCounters.lost.set ring (bump s.ringCounters.lost[ring]) }
         raises := if r.loss = 0 then s.raises ++ [⟨.ringLoss, BitVec.ofNat 32 ring.val⟩] else s.raises }))
  ∧ (∀ s : State, s.part = .running ∨ s.part = .stopping →
       (∀ (d : Delivery) (ring : Fin 4), s.delivery = some d → d.rings.getLsbD ring.val = true →
         let left := d.rings &&& ~~~(BitVec.ofNat 4 (2 ^ ring.val))
         exec (.eventRecordTake (.release ring)) s = .next (State.settled (takeRecord ring
           (.event d.event.source d.event.kind d.event.origin d.event.flags d.late d.event.capture d.time
             (if d.release ≤ d.time then BitVec.ofNat 32 (min (d.time - d.release) (2 ^ 32 - 1))
               else Config.latenessAcrossStep d.release d.time))
           { s with delivery := if d.outputs = 0 ∧ left = 0 then none else some { d with rings := left } })))
       ∧ (∀ (ring : Fin 4) (r : HostRecord) (rest : List HostRecord), noticeRing s = some ring →
         (s.faultNotices = r :: rest →
           exec (.eventRecordTake .faultUnit) s = .next (takeRecord ring r { s with faultNotices := rest }))
         ∧ (s.linkNotices = r :: rest →
           exec (.eventRecordTake .linkController) s = .next (takeRecord ring r { s with linkNotices := rest }))))

/-- R146, R149 to R151, R153, R177: in RUNNING and STOPPING the oldest write of its target completes. A record's bytes
stand in its slot, the ring's producer index names the slot after it, and the write of that index to the status block
is made, behind those that have not completed. An index write stands in its field of the status block; that of the
completion ring counts completions_posted and sets the COMPLETION cause, that of an event ring counts posted and sets
the ring's EVENT cause, and that of the command consumer index (made when a command is taken, R147) brings nothing
with it (log entry 39 for the two steps). A STATS_READ buffer write's bytes stand at its address, and the STATS_READ
in flight counts them. R142, R141: in every part state a write that a device reset or the entry to HALTED left on the
bus may complete, no earlier one of the same bytes being left, and nothing else follows (log entries 21 and 36). With
no such write nothing happens (log entry 2). -/
def Obligations.RecordWriteCompletes : Prop :=
  (∀ (s : State) (g : Geometry), s.part = .running ∨ s.part = .stopping → s.geom = some g →
    let next := fun (r : OutRing) (w : RingWrite) => (w.slot + 1) % r.size
    let stored := fun (r : OutRing) (w : RingWrite) =>
      Memory.writeBytes s.hostMem (r.base.toNat + 32 * w.slot) w.record.bytes
    (∀ (w : RingWrite) (rest : List RingWrite), g.compl.writes = w :: rest →
      exec (.recordWriteDone .completionRing) s = .next { s with
        hostMem := stored g.compl w
        geom := some { g with compl := { g.compl with producer := next g.compl w, writes := rest } }
        indexWrites := s.indexWrites ++ [⟨.completion, next g.compl w⟩] })
    ∧ (g.compl.writes = [] → exec (.recordWriteDone .completionRing) s = .next s)
    ∧ (∀ (ring : Fin 4) (w : RingWrite) (rest : List RingWrite), g.event[ring].writes = w :: rest →
      exec (.recordWriteDone (.eventRing ring)) s = .next { s with
        hostMem := stored g.event[ring] w
        geom := some { g with
          event := g.event.set ring { g.event[ring] with producer := next g.event[ring] w, writes := rest } }
        indexWrites := s.indexWrites ++ [⟨.event ring, next g.event[ring] w⟩] })
    ∧ (∀ ring : Fin 4, g.event[ring].writes = [] → exec (.recordWriteDone (.eventRing ring)) s = .next s)
    ∧ (∀ (field : IndexField) (before after : List IndexWrite) (value : Nat),
        s.indexWrites = before ++ ⟨field, value⟩ :: after → (∀ w ∈ before, w.field ≠ field) →
        let shown := fun (offset : Nat) (k : RingCounters → RingCounters) => ({ s with
          hostMem := Memory.writeBytes s.hostMem (g.status.toNat + offset) (le 4 value)
          indexWrites := before ++ after, ringCounters := k s.ringCounters } : State)
        let done := exec (.recordWriteDone (.index field)) s
        (field = .command → done = .next (shown 0 id))
        ∧ (field = .completion → done = .next (setCause .completion
            (shown 4 fun k => { k with completionsPosted := bump k.completionsPosted })))
        ∧ (∀ ring : Fin 4, field = .event ring → done = .next (setCause (.event ring)
            (shown (8 + 4 * ring.val) fun k => { k with posted := k.posted.set ring (bump k.posted[ring]) }))))
    ∧ (∀ field : IndexField, (∀ w ∈ s.indexWrites, w.field ≠ field) →
        exec (.recordWriteDone (.index field)) s = .next s)
    ∧ (∀ (w : BufferWrite) (rest : List BufferWrite), s.bufWrites = w :: rest →
      exec (.recordWriteDone .statsBuffer) s = .next { s with
        hostMem := Memory.writeBytes s.hostMem w.address w.bytes
        bufWrites := rest
        deferred := s.deferred.map fun d => match d.job, statsJob s with
          | .statsRead _, some j => { d with job := .statsRead { j with written := j.written + w.bytes.length } }
          | _, _ => d })
    ∧ (s.bufWrites = [] → exec (.recordWriteDone .statsBuffer) s = .next s))
  ∧ (∀ (s : State) (target : WriteTarget), s.part ≠ .running → s.part ≠ .stopping → (∀ index, target ≠ .issued index) →
       exec (.recordWriteDone target) s = .next s)
  ∧ (∀ (s : State) (index : Nat),
       (∀ w : BufferWrite, s.issued[index]? = some w →
         let free := ∀ v ∈ s.issued.take index,
           w.address + w.bytes.length ≤ v.address ∨ v.address + v.bytes.length ≤ w.address
         (free → exec (.recordWriteDone (.issued index)) s = .next { s with
           hostMem := Memory.writeBytes s.hostMem w.address w.bytes
           issued := s.issued.take index ++ s.issued.drop (index + 1) })
         ∧ (¬ free → exec (.recordWriteDone (.issued index)) s = .next s))
       ∧ (s.issued.length ≤ index → exec (.recordWriteDone (.issued index)) s = .next s))

/-- 13.2, R197: the 32 bytes of a completion record and of the event ring records EVENT, LOSS, FAULT and LINK: each
field at its offset, little-endian, the bytes no field names 0, the parameter of RISE and FALL and the tag of a LINE
or LINK event 0; and the codes of 13.1 that they show. Times show their low 64 bits (log entry 4). -/
def Obligations.HostRecordsHaveTheirLayout : Prop :=
  (∀ (kind : Byte) (tag : Word) (status : Status) (w1 w2 w3 : Word),
     let r := HostRecord.bytes (.completion kind tag status w1 w2 w3)
     r.length = 32 ∧ fieldAt r 0 1 = kind.toNat ∧ fieldAt r 1 1 = status.code ∧ fieldAt r 2 2 = 0
       ∧ fieldAt r 4 4 = tag.toNat ∧ fieldAt r 8 4 = w1.toNat ∧ fieldAt r 12 4 = w2.toNat ∧ fieldAt r 16 4 = w3.toNat
       ∧ bytesAt r 20 12 = List.replicate 12 0)
  ∧ (∀ (source : Byte) (kind : EventKind) (origin : Origin) (flags : Flags) (late : Bool) (capture delivery : Nat)
       (lateness : Word),
       let r := HostRecord.bytes (.event source kind origin flags late capture delivery lateness)
       let flag := fun i : Nat => (r.getD 4 0).getLsbD i
       r.length = 32 ∧ fieldAt r 0 1 = 1 ∧ fieldAt r 1 1 = source.toNat
         ∧ fieldAt r 2 1 = (match kind with | .rise => 0 | .fall => 1 | .state _ => 2 | .pulse _ => 3 | .mark _ => 4)
         ∧ fieldAt r 3 1 = (match origin with | .line n => n.val | .link => 16 | .host _ => 17)
         ∧ flag 0 = flags.coalesced ∧ flag 1 = flags.refresh ∧ flag 2 = flags.unaligned ∧ flag 3 = late
         ∧ fieldAt r 4 2 < 16
         ∧ fieldAt r 6 2 = (match kind with
             | .rise => 0 | .fall => 0 | .state l => if l = .low then 0 else 1
             | .pulse width => width.toNat | .mark word => word.toNat)
         ∧ fieldAt r 8 8 = capture % 2 ^ 64 ∧ fieldAt r 16 8 = delivery % 2 ^ 64 ∧ fieldAt r 24 4 = lateness.toNat
         ∧ fieldAt r 28 4 = (match origin with | .line _ => 0 | .link => 0 | .host tag => tag.toNat))
  ∧ (∀ count : Word,
       let r := HostRecord.bytes (.loss count)
       r.length = 32 ∧ fieldAt r 0 1 = 2 ∧ fieldAt r 1 3 = 0 ∧ fieldAt r 4 4 = count.toNat
         ∧ bytesAt r 8 24 = List.replicate 24 0)
  ∧ (∀ (cls : FaultClass) (context : Word) (time : Nat),
       let r := HostRecord.bytes (.fault cls context time)
       r.length = 32 ∧ fieldAt r 0 1 = 3 ∧ fieldAt r 1 1 = cls.code.val ∧ fieldAt r 2 2 = 0
         ∧ fieldAt r 4 4 = context.toNat ∧ fieldAt r 8 8 = time % 2 ^ 64 ∧ bytesAt r 16 16 = List.replicate 16 0)
  ∧ (∀ (state : Session) (reason : Reason) (own peer : Half) (time : Nat),
       let r := HostRecord.bytes (.link state reason own peer time)
       r.length = 32 ∧ fieldAt r 0 1 = 4 ∧ fieldAt r 1 1 = state.code ∧ fieldAt r 2 1 = reason.code ∧ fieldAt r 3 1 = 0
         ∧ fieldAt r 4 2 = own.toNat ∧ fieldAt r 6 2 = peer.toNat ∧ fieldAt r 8 8 = time % 2 ^ 64
         ∧ bytesAt r 16 16 = List.replicate 16 0)
  ∧ [Status.ok, .busy, .invalid, .unknown, .notEmpty, .intakeFull, .closed, .wrongMode, .linkState, .timeout
      , .alignFailed, .deadline, .aborted].map Status.code = List.range 13
  ∧ [FaultClass.hostBus, .hostProtocol, .intakeFull, .holdFull, .deadline, .ringLoss, .linkLost, .linkBacklog
      , .alignStale].map (fun c => c.code.val) = List.range 9
  ∧ [Session.closed, .calling, .aligning, .up, .failed].map Session.code = List.range 5
  ∧ [Reason.noReason, .opened, .timeout, .alignFailed, .retryLimit, .silent, .peerRestart, .hostClose, .peerClose
      , .stop].map Reason.code = List.range 10

/-! ### Input lines (chapter 5) -/

/-- R71 to R73: a raw change. A line that filters (RUNNING, mode not OFF) drops its candidate and counts a glitch when
it has one, opens one now when it has none and F > 0, and accepts the change at once with F = 0; a line that does not
filter follows its pin with its capture state reset. A pin sampled at its raw level changes nothing (log entry 2). R73
to R76: F ticks after its start the candidate is accepted. A change the mode does not select is done; a selected one
is coalesced in an open spacing window; otherwise its edge, with the candidate's start as capture time, is offered:
accepted, it is counted captured, its level becomes the last reported and a window of S ticks opens (unless S = 0 or
its end is already reached); FULL counts lost and raises INTAKE_FULL with the line, CLOSED counts refused_closed.
Before that, and with no candidate, nothing happens (log entry 2). R77, R75: at its spacing end the window closes and
suppressed is cleared. When something was suppressed and, under BOTH, the accepted level differs from the last
reported, or under RISE_ONLY and FALL_ONLY always, a catch-up event with COALESCED and the spacing end as capture time
is offered, with the counts of R75, and opens no window. Before that nothing happens (log entry 2). -/
def Obligations.GlitchFilterAndSpacingWindow : Prop :=
  (∀ (s : State) (n : Fin 16) (level : Level),
     let l := s.inputs[n]
     let filters := s.part = .running ∧ l.config.mode ≠ .off
     let line := fun l1 : InputLine => ({ s with inputs := s.inputs.set n l1 } : State)
     (l.raw = level → exec (.rawChange n level) s = .next s)
     ∧ (l.raw ≠ level → ¬ filters → exec (.rawChange n level) s = .next (line { l with
         raw := level, accepted := level, reported := level
         candidate := none, spacingEnd := none, suppressed := false }))
     ∧ (l.raw ≠ level → filters → l.candidate ≠ none → exec (.rawChange n level) s = .next (line { l with
         raw := level, candidate := none
         counters := { l.counters with glitches := bump l.counters.glitches } }))
     ∧ (l.raw ≠ level → filters → l.candidate = none → l.config.filter ≠ 0 → exec (.rawChange n level) s = .next
         (line { l with raw := level, candidate := some s.localTime }))
     ∧ (l.raw ≠ level → filters → l.candidate = none → l.config.filter = 0 → exec (.rawChange n level) s
         = exec (.filterAccept n) (line { l with raw := level, candidate := some s.localTime })))
  ∧ (∀ (s : State) (n : Fin 16),
       let l := s.inputs[n]
       let done : InputLine := { l with accepted := l.raw, candidate := none }
       let line := fun l1 : InputLine => ({ s with inputs := s.inputs.set n l1 } : State)
       let selected := l.config.mode = .both ∨ (l.config.mode = .riseOnly ∧ l.raw = .high)
         ∨ (l.config.mode = .fallOnly ∧ l.raw = .low)
       (∀ start, l.candidate = some start → start + l.config.filter.toNat ≤ s.localTime →
         (¬ selected → exec (.filterAccept n) s = .next (line done))
         ∧ (selected → l.spacingEnd ≠ none → exec (.filterAccept n) s = .next (line { done with
             suppressed := true, counters := { l.counters with coalesced := bump l.counters.coalesced } }))
         ∧ (selected → l.spacingEnd = none → s.intakeOpen = true → s.intake.length < 64 →
             exec (.filterAccept n) s = .next { line { done with
               reported := l.raw
               spacingEnd := if l.config.spacing = 0 ∨ start + l.config.spacing.toNat ≤ s.localTime then none
                 else some (start + l.config.spacing.toNat)
               counters := { l.counters with captured := bump l.counters.captured } } with
               intake := s.intake ++ [{
                 source := l.config.source, kind := if l.raw = .high then .rise else .fall, capture := start
                 origin := .line n, flags := { coalesced := false, refresh := false, unaligned := false } }] })
         ∧ (selected → l.spacingEnd = none → s.intakeOpen = true → 64 ≤ s.intake.length →
             exec (.filterAccept n) s = .next
               { line { done with counters := { l.counters with lost := bump l.counters.lost } } with
                 raises := s.raises ++ [⟨.intakeFull, BitVec.ofNat 32 n.val⟩] })
         ∧ (selected → l.spacingEnd = none → s.intakeOpen = false → exec (.filterAccept n) s = .next
             (line { done with counters := { l.counters with refusedClosed := bump l.counters.refusedClosed } })))
       ∧ (∀ start, l.candidate = some start → s.localTime < start + l.config.filter.toNat →
           exec (.filterAccept n) s = .next s)
       ∧ (l.candidate = none → exec (.filterAccept n) s = .next s))
  ∧ (∀ (s : State) (n : Fin 16) (finish : Nat),
       let l := s.inputs[n]
       let done : InputLine := { l with spacingEnd := none, suppressed := false }
       let line := fun l1 : InputLine => ({ s with inputs := s.inputs.set n l1 } : State)
       let level : Level := match l.config.mode with
         | .riseOnly => .high
         | .fallOnly => .low
         | .both => l.accepted
         | .off => l.accepted
       let due := l.suppressed = true ∧ l.config.mode ≠ .off ∧ (l.config.mode = .both → l.accepted ≠ l.reported)
       (l.spacingEnd = some finish → finish ≤ s.localTime →
         (¬ due → exec (.spacingEnd n) s = .next (line done))
         ∧ (due → s.intakeOpen = true → s.intake.length < 64 → exec (.spacingEnd n) s = .next
             { line { done with
                 reported := level, counters := { l.counters with captured := bump l.counters.captured } } with
               intake := s.intake ++ [{
                 source := l.config.source, kind := if level = .high then .rise else .fall, capture := finish
                 origin := .line n, flags := { coalesced := true, refresh := false, unaligned := false } }] })
         ∧ (due → s.intakeOpen = true → 64 ≤ s.intake.length → exec (.spacingEnd n) s = .next
             { line { done with counters := { l.counters with lost := bump l.counters.lost } } with
               raises := s.raises ++ [⟨.intakeFull, BitVec.ofNat 32 n.val⟩] })
         ∧ (due → s.intakeOpen = false → exec (.spacingEnd n) s = .next
             (line { done with counters := { l.counters with refusedClosed := bump l.counters.refusedClosed } })))
       ∧ (l.spacingEnd = some finish → s.localTime < finish → exec (.spacingEnd n) s = .next s)
       ∧ (l.spacingEnd = none → exec (.spacingEnd n) s = .next s))

/-! ### Faults (chapter 11) -/

/-- R182 to R184: the Fault Unit takes a raise: the occurrence count goes up to 65,535 at most, the class is sticky,
and a class that was clear keeps the context and time of this raise; a class armed and enabled in RUNNING or STOPPING
hands its notice over (with a notice ring) and is disarmed; a class that becomes sticky while enabled sets the FAULT
cause. Other classes are left alone. Which of the raises that wait is taken is the step's operand (log entry 7). R178,
R186, R187: FAULTS reads the sticky set and the count of the query class, clears each class of the clear set but
HOST_BUS (flag clear, count 0, first context and time absent, notice armed, mask bit kept), writes the report mask
under its flag, and completes OK with the sticky set read, the mask after and the count read. -/
def Obligations.FaultRaiseAndFaultsCommand : Prop :=
  (∀ (s : State) (index : Nat) (r : Raise), s.raises[index]? = some r →
     let x := s.faults[r.cls.code]
     let posts := x.armed = true ∧ x.enabled = true ∧ (s.part = .running ∨ s.part = .stopping)
     let u : State := { s with
       raises := s.raises.take index ++ s.raises.drop (index + 1)
       faults := s.faults.set r.cls.code {
         sticky := true
         count := if x.count.toNat = 65535 then x.count else x.count + 1
         enabled := x.enabled
         armed := if posts then false else x.armed
         firstContext := if x.sticky then x.firstContext else some r.context
         firstTime := if x.sticky then x.firstTime else some s.localTime }
       faultNotices := if posts ∧ noticeRing s ≠ none then s.faultNotices ++ [.fault r.cls r.context s.localTime]
         else s.faultNotices }
     exec (.faultRaise index) s = .next
       (if x.sticky = false ∧ x.enabled = true then setCause .fault u else u))
  ∧ (∀ (s : State) (g : Geometry) (tag : Word) (f : FaultsFields) (query : Fin 9), Ready s g →
       FieldsInRange s (.faults f) → f.query.toNat = query.val →
       let after := Vector.ofFn fun k : Fin 9 =>
         let x := s.faults[k]
         let x1 := if f.clear.getLsbD k.val = true ∧ k ≠ 0 then
           { x with sticky := false, count := 0, armed := true, firstContext := none, firstTime := none } else x
         if f.maskWrite = 1 then { x1 with enabled := f.mask.getLsbD k.val } else x1
       let asSet := fun member : Fin 9 → Bool =>
         BitVec.ofNat 32 (((List.finRange 9).map fun k => if member k then 2 ^ k.val else 0).sum)
       exec (.faults tag f) s = .next (State.commandDone g []
         (.completion 0x12 tag .ok (asSet fun k => s.faults[k].sticky) (asSet fun k => after[k].enabled)
           (s.faults[query].count.setWidth 32)) { s with faults := after }))

/-! ### Frames that arrive (7.1, 7.3, 7.6, 8.2 to 8.4) -/

/-- R100, R101, R104: a frame that fails its CRC is counted and has no other effect; every intact frame is counted and
restarts the silence timer in ALIGNING and UP; a malformed one, such as a HELLO, CLOSE or IDLE with a session of 0, is
then counted in rx_malformed, and an IDLE does nothing more. While RESET_N is asserted no frame is taken (log entry
6). R104, R106, R108, R113: a HELLO. In CLOSED and FAILED it is counted in hellos_unanswered; in CALLING its sender is
recorded, and when it has seen this side's session the session enters ALIGNING: the open timer stops, the silence
timer starts, the first probe attempt begins and a PROBE is made; in ALIGNING and UP a HELLO of the session pair
changes nothing more, and any other fails the session with PEER_RESTART. R104, R114, R117, R118: a CLOSE in CALLING,
ALIGNING or UP that carries the recorded peer session moves the session to CLOSED with reason PEER_CLOSE, makes no
CLOSE, posts a LINK notice and completes a LINK_OPEN in flight ABORTED; any other is counted in rx_unexpected. -/
def Obligations.SessionFramesMoveSession : Prop :=
  (∀ (s : State) (sender seen : Half) (f : RxEventFields) (value number : Byte) (t1 t2 t3 : Quad),
     let counted := fun (u : State) (f : LinkCounters → LinkCounters) =>
       ({ u with link := { u.link with counters := f u.link.counters } } : State)
     (s.resetHeld = false →
       exec .crcError s = .next (counted s fun c => { c with crcErrors := bump c.crcErrors })
       ∧ exec .frameMalformed s = .next
           (counted s.frameHeard fun c => { c with rxMalformed := bump c.rxMalformed }).settled
       ∧ (sender ≠ 0 → exec (.rxIdle sender) s = .next s.frameHeard.settled))
     ∧ (exec (.rxHello 0 seen) s = exec .frameMalformed s ∧ exec (.rxClose 0) s = exec .frameMalformed s
       ∧ exec (.rxIdle 0) s = exec .frameMalformed s)
     ∧ (s.resetHeld = true → ∀ i ∈ ([.crcError, .frameMalformed, .rxHello sender seen, .rxClose sender, .rxIdle sender
         , .rxEvent f, .rxAck value, .rxProbe number t1
         , .rxEcho number t1 t2 t3 (.frame none)] : List Instr), exec i s = .next s))
  ∧ (∀ (s : State) (sender seen : Half), s.resetHeld = false → sender ≠ 0 →
       let u := s.frameHeard
       let recorded : Link := { u.link with recorded := sender }
       (s.link.session = .closed ∨ s.link.session = .failed → exec (.rxHello sender seen) s = .next
         (State.settled { u with link := { u.link with
           counters := { u.link.counters with hellosUnanswered := bump u.link.counters.hellosUnanswered } } }))
       ∧ (s.link.session = .calling → seen ≠ s.link.own → exec (.rxHello sender seen) s = .next
           (State.settled { u with link := recorded }))
       ∧ (s.link.session = .calling → seen = s.link.own → exec (.rxHello sender seen) s = .next
           (State.settled { u with link := { recorded with
             session := .aligning, openTimer := none, silenceTimer := some 0, attempts := 1, attemptTimer := some 0
             probes := s.link.probes ++ [s.link.nextProbe], nextProbe := s.link.nextProbe + 1, outstanding := none } }))
       ∧ (s.link.session = .aligning ∨ s.link.session = .up → sender = s.link.recorded → seen = s.link.own →
           exec (.rxHello sender seen) s = .next u.settled)
       ∧ (s.link.session = .aligning ∨ s.link.session = .up → (sender ≠ s.link.recorded ∨ seen ≠ s.link.own) →
           exec (.rxHello sender seen) s = .next (u.sessionFailed .peerRestart).settled))
  ∧ (∀ (s : State) (sender : Half), s.resetHeld = false → sender ≠ 0 →
       let u := s.frameHeard
       let inCall := s.link.session = .calling ∨ s.link.session = .aligning ∨ s.link.session = .up
       (inCall → sender = s.link.recorded → exec (.rxClose sender) s = .next
         (State.settled (u.transition .aborted (u.link.ended .closed .peerClose false))))
       ∧ (¬ inCall ∨ sender ≠ s.link.recorded → exec (.rxClose sender) s = .next
           (State.settled { u with link := { u.link with
             counters := { u.link.counters with rxUnexpected := bump u.link.counters.rxUnexpected } } })))

/-- R126 to R128, R134, R6: a well-formed EVENT frame in UP. Of the expected sequence it is offered to the intake, as
an event of origin LINK whose capture time is the sender's less the offset (never below 0) and which carries UNALIGNED
when the alignment is STALE: ACCEPTED and CLOSED pass it (the expected sequence advances and an ACK with the new one
waits) and FULL leaves it for the peer to resend; up to 128 behind it is a duplicate and the ACK is made again; ahead
it is out of order. Outside UP it is counted in rx_unexpected. R101, R126: an EVENT frame whose kind code is none of
the five, whose parameter is out of its kind's range, or whose flags name more than COALESCED and REFRESH, is
malformed: in UP it is counted in rx_malformed and has no other effect; any other is a RISE, FALL, STATE of its level,
PULSE of its width or MARK of its word, by the kind codes 0 to 4 of 13.1. (Outside UP which of rx_malformed and
rx_unexpected counts it is a free choice: log entry 15.) -/
def Obligations.EventFramesAreTakenOrCounted : Prop :=
  (∀ (s : State) (f : RxEventFields) (kind : EventKind), s.resetHeld = false → rxKind f = some kind →
     let u := s.frameHeard
     let l := u.link
     let behind := (s.link.expected - f.seq).toNat
     let passed : Link := { l with expected := l.expected + 1, ackWait := some (l.expected + 1) }
     let event : Event := {
       source := f.source, kind := kind, capture := ((f.capture.toNat : Int) - l.offset).toNat, origin := .link
       flags := { coalesced := f.flags.getLsbD 0, refresh := f.flags.getLsbD 1, unaligned := !l.fresh } }
     let up := s.link.session = .up
     (up → behind = 0 → s.intakeOpen = true → s.intake.length < 64 → exec (.rxEvent f) s = .next
       (State.settled { u with
         intake := s.intake ++ [event]
         link := { passed with
           counters := { l.counters with eventsReceived := bump l.counters.eventsReceived } } }))
     ∧ (up → behind = 0 → s.intakeOpen = false → exec (.rxEvent f) s = .next
         (State.settled { u with link := { passed with
           counters := { l.counters with rxClosed := bump l.counters.rxClosed } } }))
     ∧ (up → behind = 0 → s.intakeOpen = true → 64 ≤ s.intake.length → exec (.rxEvent f) s = .next
         (State.settled { u with link := { l with
           counters := { l.counters with rxRefused := bump l.counters.rxRefused } } }))
     ∧ (up → 1 ≤ behind → behind ≤ 128 → exec (.rxEvent f) s = .next
         (State.settled { u with link := { l with
           ackWait := some l.expected
           counters := { l.counters with duplicates := bump l.counters.duplicates } } }))
     ∧ (up → 129 ≤ behind → exec (.rxEvent f) s = .next
         (State.settled { u with link := { l with
           counters := { l.counters with outOfOrder := bump l.counters.outOfOrder } } }))
     ∧ (¬ up → exec (.rxEvent f) s = .next
         (State.settled { u with link := { l with
           counters := { l.counters with rxUnexpected := bump l.counters.rxUnexpected } } })))
  ∧ (∀ (s : State) (f : RxEventFields), s.resetHeld = false →
       let malformed := 4 < f.kind.toNat ∨ (f.kind = 2 ∧ 1 < f.param.toNat) ∨ (f.kind = 3 ∧ f.param = 0) ∨ 4 ≤ f.flags.toNat
       let u := s.frameHeard
       (malformed ↔ rxKind f = none)
       ∧ (¬ malformed → rxKind f = some (
           if f.kind = 0 then .rise else if f.kind = 1 then .fall
           else if f.kind = 2 then .state (if f.param = 0 then .low else .high)
           else if f.kind = 3 then .pulse f.param else .mark f.param))
       ∧ (malformed → s.link.session = .up → exec (.rxEvent f) s = .next
           (State.settled { u with link := { u.link with
             counters := { u.link.counters with rxMalformed := bump u.link.counters.rxMalformed } } }))
       ∧ (malformed → s.link.session ≠ .up → exec (.rxEvent f) s = .next
           (State.settled { u with link := { u.link with
             counters := if Config.malformedEventCountsOutsideUp
               then { u.link.counters with rxMalformed := bump u.link.counters.rxMalformed }
               else { u.link.counters with rxUnexpected := bump u.link.counters.rxUnexpected } } })))

/-- R121, R123, R124: an ACK in UP whose value is d ahead of the oldest window frame's sequence (the next sequence
with an empty window), modulo 256: d = 0 acknowledges nothing; 1 to the window depth takes the d oldest frames from
the window, lets waiting frames fill it, and restarts the ack timer, or stops it when the window is empty; any other
is counted in acks_ignored. Outside UP it is counted in rx_unexpected. -/
def Obligations.AckRemovesOldestFrames : Prop :=
  ∀ (s : State) (value : Byte), s.resetHeld = false →
    let u := s.frameHeard
    let l := s.link
    let oldest := match l.window with
      | [] => l.nextSeq
      | w :: _ => w.seq
    let d := (value - oldest).toNat
    let entering := l.waiting.take (16 - (l.window.length - d))
    let entered := (List.range entering.length).zipWith (fun i e =>
      ({ event := e, seq := l.nextSeq + BitVec.ofNat 8 i, retry := 0, isPending := true, sentBefore := false } :
        WindowFrame)) entering
    let window := l.window.drop d ++ entered
    let counted := fun f : LinkCounters → LinkCounters =>
      (State.settled { u with link := { u.link with counters := f u.link.counters } } : State)
    (l.session = .up → d = 0 → exec (.rxAck value) s = .next u.settled)
    ∧ (l.session = .up → 1 ≤ d → d ≤ l.window.length → exec (.rxAck value) s = .next
        (State.settled { u with link := { u.link with
          window := window, waiting := l.waiting.drop entering.length
          nextSeq := l.nextSeq + BitVec.ofNat 8 entering.length
          ackTimer := if window = [] then none else some 0 } }))
    ∧ (l.session = .up → l.window.length < d → exec (.rxAck value) s = .next
        (counted fun c => { c with acksIgnored := bump c.acksIgnored }))
    ∧ (l.session ≠ .up → exec (.rxAck value) s = .next
        (counted fun c => { c with rxUnexpected := bump c.rxUnexpected }))

/-- R104, R131: a PROBE in ALIGNING and UP makes an ECHO of its number and t1, with t2 now; in every other session
state it is counted in rx_unexpected. R104, R132, R133: an ECHO in UP, or in ALIGNING unless it is accepted, of the
outstanding probe. With delay = ((t4 - t1) - (t3 - t2)) / 2 and offset = ((t2 - t1) + (t3 - t4)) / 2, truncated toward
zero, t4 being now: a delay from 0 to the max path delay accepts it (offset and last delay taken, FRESH, the staleness
timer restarted) and any other rejects it; either way the probe is no longer outstanding. An ECHO of no outstanding
probe is counted in echoes_ignored, and in every other session state it is counted in rx_unexpected. -/
def Obligations.ProbesAndEchoes : Prop :=
  (∀ (s : State) (number : Byte) (t1 : Quad), s.resetHeld = false →
     let u := s.frameHeard
     let takes := s.link.session = .aligning ∨ s.link.session = .up
     (takes → exec (.rxProbe number t1) s = .next (State.settled { u with link := { u.link with
       echoes := s.link.echoes ++ [⟨number, t1, s.localTime⟩] } }))
     ∧ (¬ takes → exec (.rxProbe number t1) s = .next (State.settled { u with link := { u.link with
         counters := { u.link.counters with rxUnexpected := bump u.link.counters.rxUnexpected } } })))
  ∧ (∀ (s : State) (number : Byte) (sent : Nat) (t1 t2 t3 : Quad) (pause : Option Nat), s.resetHeld = false →
       let u := s.frameHeard
       let l := u.link
       let echo := exec (.rxEcho number t1 t2 t3 (.frame pause)) s
       let now := (s.localTime : Int)
       let delay := ((now - sent) - ((t3.toNat : Int) - (t2.toNat : Int))).tdiv 2
       let offset := (((t2.toNat : Int) - sent) + ((t3.toNat : Int) - now)).tdiv 2
       let answers := s.link.outstanding = some (number, sent) ∧ t1 = BitVec.ofNat 64 sent
       let takes := s.link.session = .aligning ∨ s.link.session = .up
       (s.link.session = .up → answers → 0 ≤ delay → delay ≤ (s.link.params.maxDelay : Int) → echo = .next
         (State.settled { u with link := { l with
           outstanding := none, offset := offset, lastDelay := delay, fresh := true, staleTimer := some 0
           counters := { l.counters with probesAccepted := bump l.counters.probesAccepted } } }))
       ∧ (takes → answers → (delay < 0 ∨ (s.link.params.maxDelay : Int) < delay) → echo = .next
           (State.settled { u with link := { l with
             outstanding := none
             counters := { l.counters with probesRejected := bump l.counters.probesRejected } } }))
       ∧ (takes → (∀ sent', s.link.outstanding = some (number, sent') → t1 ≠ BitVec.ofNat 64 sent') →
           echo = .next (State.settled { u with link := { l with
             counters := { l.counters with echoesIgnored := bump l.counters.echoesIgnored } } }))
       ∧ (¬ takes → echo = .next (State.settled { u with link := { l with
           counters := { l.counters with rxUnexpected := bump l.counters.rxUnexpected } } })))

/-- R110, R132, R81, R79, R8: the accepted ECHO of an ALIGNING session takes it UP: reason OPENED (log entry 27),
HELLOs end, the sequences are 0, the probe and staleness timers start; a LINK notice is handed over and the LINK_OPEN
in flight completes OK; then every line that announces and is not OFF offers its STATE event in ascending line number,
all of them or so many that other steps may fall before the rest (log entry 11): those refused count lost (and raise
INTAKE_FULL with the line) or refused_closed. -/
def Obligations.AcceptedEchoBringsSessionUp : Prop :=
  ∀ (s : State) (number : Byte) (sent : Nat) (t1 t2 t3 : Quad) (pause : Option Nat), s.resetHeld = false →
    s.link.session = .aligning → s.announcing = [] →
    s.link.outstanding = some (number, sent) → t1 = BitVec.ofNat 64 sent →
    let now := (s.localTime : Int)
    let delay := ((now - sent) - ((t3.toNat : Int) - (t2.toNat : Int))).tdiv 2
    let offset := (((t2.toNat : Int) - sent) + ((t3.toNat : Int) - now)).tdiv 2
    0 ≤ delay → delay ≤ (s.link.params.maxDelay : Int) →
    let l := s.frameHeard.link
    let up : Link := { l with
      session := .up, reason := .opened, outstanding := none, offset := offset, lastDelay := delay, fresh := true
      counters := { l.counters with probesAccepted := bump l.counters.probesAccepted }
      staleTimer := some 0, probeTimer := some 0, helloTimer := none, hellos := [], attempts := 0
      attemptTimer := none, expected := 0, nextSeq := 0 }
    let u := s.transition .ok up
    let lines := (List.finRange 16).filter fun n => s.inputs[n].config.announce ∧ s.inputs[n].config.mode ≠ .off
    let count := match pause with
      | none => lines.length
      | some k => k
    let made := s.acceptedLines (lines.take count)
    let refused := (lines.take count).drop made.length
    let v := u.stateEventsMade made
    exec (.rxEcho number t1 t2 t3 (.frame pause)) s = .next (State.settled { v with
      announcing := lines.drop count
      inputs := Vector.ofFn fun n =>
        let x := v.inputs[n]
        if n ∈ refused then { x with counters :=
          if s.intakeOpen then { x.counters with lost := bump x.counters.lost }
          else { x.counters with refusedClosed := bump x.counters.refusedClosed } }
        else x
      raises := if s.intakeOpen then s.raises ++ refused.map fun n => ⟨.intakeFull, BitVec.ofNat 32 n.val⟩
        else s.raises })

/-! ### The transmitter and the timers (7.2 to 7.5, 8.1, 8.4) -/

/-- R102, R122, R130, R131: with the lane free the transmitter takes the next waiting frame by kind: CLOSE (log entry
19), ECHO (t3 stamped now), ACK, PROBE (t1 stamped now, and outstanding from here), HELLO, the oldest PENDING window
frame (marked SENT), IDLE; of one kind the one made first. With the lane busy, or nothing waiting, nothing happens
(log entry 2). R102, R111, R119, R122, R135: a transmission ends: the lane is free, frames_sent counts it, a PROBE
counts in probes_sent and an EVENT frame sent before in retransmits, and in CALLING, ALIGNING and UP the keepalive
timer restarts. With none in progress nothing happens (log entry 2). -/
def Obligations.TransmitterSendsNextFrame : Prop :=
  (∀ (s : State),
     let l := s.link
     let send := fun (l1 : Link) (f : Frame) (resend : Bool) =>
       (.next { s with link := { l1 with lane := some ⟨f, resend⟩ } } : Host.Outcome State Fault Refusal)
     let now : Quad := BitVec.ofNat 64 s.localTime
     (l.lane ≠ none → exec .frameTransmit s = .next s)
     ∧ (l.lane = none →
       (∀ session, l.closeWait = some session →
         exec .frameTransmit s = send { l with closeWait := none } (.close session) false)
       ∧ (l.closeWait = none →
         (∀ e rest, l.echoes = e :: rest → exec .frameTransmit s
           = send { l with echoes := rest } (.echo e.number e.t1 (BitVec.ofNat 64 e.t2) now) false)
         ∧ (l.echoes = [] →
           (∀ value, l.ackWait = some value → exec .frameTransmit s = send { l with ackWait := none } (.ack value) false)
           ∧ (l.ackWait = none →
             (∀ n rest, l.probes = n :: rest → exec .frameTransmit s
               = send { l with probes := rest, outstanding := some (n, s.localTime) } (.probe n now) false)
             ∧ (l.probes = [] →
               (∀ own seen rest, l.hellos = (own, seen) :: rest →
                 exec .frameTransmit s = send { l with hellos := rest } (.hello own seen) false)
               ∧ (l.hellos = [] →
                 (∀ sent w rest, l.window = sent ++ w :: rest → (∀ x ∈ sent, x.isPending = false) → w.isPending = true →
                   exec .frameTransmit s = send
                     { l with window := sent ++ { w with isPending := false, sentBefore := true } :: rest }
                     (.event w.seq w.event.source w.event.kind w.event.coalesced w.event.refresh
                       (BitVec.ofNat 64 w.event.capture)) w.sentBefore)
                 ∧ ((∀ x ∈ l.window, x.isPending = false) →
                   (∀ session rest, l.idles = session :: rest →
                     exec .frameTransmit s = send { l with idles := rest } (.idle session) false)
                   ∧ (l.idles = [] → exec .frameTransmit s = .next s)))))))))
  ∧ (∀ s : State,
       let l := s.link
       (∀ f : LaneFrame, l.lane = some f → exec .frameSent s = .next { s with link := { l with
         lane := none
         keepTimer := if l.session = .calling ∨ l.session = .aligning ∨ l.session = .up then some 0 else l.keepTimer
         counters := { l.counters with
           framesSent := bump l.counters.framesSent
           probesSent := match f.frame with
             | .probe _ _ => bump l.counters.probesSent
             | _ => l.counters.probesSent
           retransmits := match f.frame, f.resend with
             | .event _ _ _ _ _ _, true => bump l.counters.retransmits
             | _, _ => l.counters.retransmits } } })
       ∧ (l.lane = none → exec .frameSent s = .next s))

/-- R106, R109, R111, R130, R133: expiries that do not end the session. In CALLING and ALIGNING a HELLO is made every
10,000 ticks; a quarter of the idle timeout with nothing sent makes an IDLE (log entry 20); in ALIGNING an attempt
that ends before the fourth is followed by the next with its PROBE; in UP a PROBE is made each align interval; four
align intervals with no accepted ECHO make a FRESH alignment STALE and raise ALIGN_STALE with context 1. Before its
interval has passed no timer acts (log entry 2). R124, R125: the ack timeout in UP with the oldest frame's retry count
below the limit: the count goes up by one, every window frame is PENDING again, and the timer restarts. R107, R109,
R112, R117, R118, R125, R171: expiries that fail the session: the open timeout in CALLING (TIMEOUT), the fourth probe
attempt in ALIGNING (ALIGN_FAILED), the idle timeout in ALIGNING and UP (SILENT), and the ack timeout in UP with the
oldest frame's retry count at the limit (RETRY_LIMIT). Before its interval has passed no timer acts (log entry 2). -/
def Obligations.LinkTimersActOrFailSession : Prop :=
  (∀ (s : State) (n : Nat),
     let l := s.link
     let expired := fun (timer : Option Nat) (interval : Nat) => ∃ m, timer = some m ∧ interval ≤ m
     (l.session = .calling ∨ l.session = .aligning → l.helloTimer = some n → 10000 ≤ n →
       exec .helloTimer s = .next { s with link := { l with
         hellos := l.hellos ++ [(l.own, l.recorded)], helloTimer := some 0 } })
     ∧ (l.session = .calling ∨ l.session = .aligning ∨ l.session = .up → l.keepTimer = some n →
         l.params.idleTimeout / 4 ≤ n →
         exec .keepalive s = .next { s with link := { l with idles := l.idles ++ [l.own], keepTimer := none } })
     ∧ (l.session = .aligning → l.attemptTimer = some n → l.params.alignInterval ≤ n → l.attempts < 4 →
         exec .probeAttemptEnd s = .next { s with link := { l with
           attempts := l.attempts + 1, attemptTimer := some 0, outstanding := none
           probes := l.probes ++ [l.nextProbe], nextProbe := l.nextProbe + 1 } })
     ∧ (l.session = .up → l.probeTimer = some n → l.params.alignInterval ≤ n →
         exec .probeTimer s = .next { s with link := { l with
           probeTimer := some 0, outstanding := none
           probes := l.probes ++ [l.nextProbe], nextProbe := l.nextProbe + 1 } })
     ∧ (l.session = .up → l.staleTimer = some n → 4 * l.params.alignInterval ≤ n →
         exec .stalenessTimeout s = .next { s with
           link := { l with staleTimer := none, fresh := false }
           raises := if l.fresh then s.raises ++ [⟨.alignStale, 1⟩] else s.raises })
     ∧ (¬ ((l.session = .calling ∨ l.session = .aligning) ∧ expired l.helloTimer 10000) → exec .helloTimer s = .next s)
     ∧ (¬ ((l.session = .calling ∨ l.session = .aligning ∨ l.session = .up)
         ∧ expired l.keepTimer (l.params.idleTimeout / 4)) → exec .keepalive s = .next s)
     ∧ (¬ (l.session = .up ∧ expired l.probeTimer l.params.alignInterval) → exec .probeTimer s = .next s)
     ∧ (¬ (l.session = .up ∧ expired l.staleTimer (4 * l.params.alignInterval)) → exec .stalenessTimeout s = .next s))
  ∧ (∀ (s : State) (n : Nat) (w : WindowFrame) (rest : List WindowFrame),
       let l := s.link
       l.session = .up → l.ackTimer = some n → l.params.ackTimeout ≤ n → l.window = w :: rest →
       w.retry < l.params.retryLimit →
       exec .ackTimeout s = .next { s with link := { l with
         ackTimer := some 0
         window := { w with retry := w.retry + 1, isPending := true }
           :: rest.map fun x => { x with isPending := true } } })
  ∧ (∀ (s : State) (n : Nat),
       let l := s.link
       let expired := fun (timer : Option Nat) (interval : Nat) => ∃ m, timer = some m ∧ interval ≤ m
       (l.session = .calling → l.openTimer = some n → l.params.openTimeout ≤ n →
         exec .openTimeout s = .next (s.sessionFailed .timeout).settled)
       ∧ (l.session = .aligning → l.attemptTimer = some n → l.params.alignInterval ≤ n → 4 ≤ l.attempts →
           exec .probeAttemptEnd s = .next (s.sessionFailed .alignFailed).settled)
       ∧ (l.session = .aligning ∨ l.session = .up → l.silenceTimer = some n → l.params.idleTimeout ≤ n →
           exec .silenceTimeout s = .next (s.sessionFailed .silent).settled)
       ∧ (∀ w rest, l.session = .up → l.ackTimer = some n → l.params.ackTimeout ≤ n → l.window = w :: rest →
           l.params.retryLimit ≤ w.retry → exec .ackTimeout s = .next (s.sessionFailed .retryLimit).settled)
       ∧ (¬ (l.session = .calling ∧ expired l.openTimer l.params.openTimeout) → exec .openTimeout s = .next s)
       ∧ (¬ (l.session = .aligning ∧ expired l.attemptTimer l.params.alignInterval) → exec .probeAttemptEnd s = .next s)
       ∧ (¬ ((l.session = .aligning ∨ l.session = .up) ∧ expired l.silenceTimer l.params.idleTimeout) →
           exec .silenceTimeout s = .next s)
       ∧ (¬ (l.session = .up ∧ expired l.ackTimer l.params.ackTimeout ∧ l.window ≠ []) → exec .ackTimeout s = .next s))

/-- R60, R63: a TICK in any part state: local time and every running elapsed timer (those of the link and the deadline
of a QUIESCE in flight) go up by one; while RESET_N is asserted local time stays at 0 and nothing counts. R64, R170:
TIME_READ completes OK with local time at its execution, low 32 bits then high 32 bits, and changes nothing (log entry
4 for times of 2^64 and more). R65, R67 to R69, R170: TIME_SET with an empty Hold Queue sets local time, resets the
capture state of every input line, moves the end of every active pulse by the step (and with it the requests of a
delivery in progress), makes the alignment STALE, abandons the outstanding probe, drops unsent ECHOs, raises
ALIGN_STALE with context 0 in a session that is UP, and completes OK with the time before; with entries held it
completes NOT_EMPTY with their number and changes nothing. -/
def Obligations.TickTimeReadAndTimeSet : Prop :=
  (∀ s : State,
     (s.resetHeld = true → exec .tick s = .next s)
     ∧ (s.resetHeld = false → exec .tick s = .next { s with
         localTime := s.localTime + 1
         link := { s.link with
           openTimer := s.link.openTimer.map (· + 1), helloTimer := s.link.helloTimer.map (· + 1)
           keepTimer := s.link.keepTimer.map (· + 1), silenceTimer := s.link.silenceTimer.map (· + 1)
           attemptTimer := s.link.attemptTimer.map (· + 1), ackTimer := s.link.ackTimer.map (· + 1)
           probeTimer := s.link.probeTimer.map (· + 1), staleTimer := s.link.staleTimer.map (· + 1) }
         deferred := s.deferred.map fun d => match d.job with
           | .quiesce deadline elapsed => { d with job := .quiesce deadline (elapsed + 1) }
           | _ => d }))
  ∧ (∀ (s : State) (g : Geometry) (tag : Word), Ready s g →
     exec (.timeRead tag) s = .next (s.commandDone g []
       (.completion 0x0B tag .ok (BitVec.ofNat 32 s.localTime) (BitVec.ofNat 32 (s.localTime / 2 ^ 32)) 0)))
  ∧ (∀ (s : State) (g : Geometry) (tag : Word) (time : Quad), Ready s g → FieldsInRange s (.timeSet time) →
       let step : Int := (time.toNat : Int) - (s.localTime : Int)
       (s.hold = [] → exec (.timeSet tag time) s = .next (State.commandDone g []
         (.completion 0x0C tag .ok (BitVec.ofNat 32 s.localTime) (BitVec.ofNat 32 (s.localTime / 2 ^ 32)) 0) { s with
           localTime := time.toNat
           inputs := Vector.ofFn fun n => s.inputs[n].stable
           outputs := Vector.ofFn fun n => { s.outputs[n] with pulse := s.outputs[n].pulse.map (· + step) }
           delivery := s.delivery.map fun d => { d with shift := d.shift + step }
           link := { s.link with fresh := false, outstanding := none, echoes := [] }
           raises := if s.link.session = .up then s.raises ++ [⟨.alignStale, 0⟩] else s.raises }))
       ∧ (s.hold ≠ [] → exec (.timeSet tag time) s = .next
           (s.commandDone g [] (.completion 0x0C tag .notEmpty (BitVec.ofNat 32 s.hold.length) 0 0))))

/-! ### Layouts (13.2, 13.4, R197, R198) -/

/-- 13.2, R197: the 32-byte command record of a command and tag is read back as that command and tag, every field of
every kind included. -/
def Obligations.CommandRecordsReadBack : Prop :=
  ∀ (tag : Word) (c : Command), WellFormed (takeOf tag c) = true →
    (commandRecord tag c).length = 32 ∧ decodeCommandRecord (commandRecord tag c) = takeOf tag c

/-- 13.4, R100, R101, R198: a frame sent, its CRC-16 behind it, is taken by the peer as the frame it is, every field
included; with a session field of 0 a HELLO, CLOSE or IDLE is malformed. -/
def Obligations.FramesReadBack : Prop :=
  ∀ f : Frame,
    (WellFormed f.arrival = true → decodeFrame f.bytes = f.arrival)
    ∧ (WellFormed f.arrival = false → decodeFrame f.bytes = .frameMalformed)
end

