-- ==== Sys2Proof/Laws/State.lean ====
section
/-! SUPPORT. What each named update of the state leaves in each field: one lemma per field per update, true by `rfl`, but for the
two updates over a whole bank of lines, whose banks `rfl` would unfold. -/

namespace Sys2Proof.Machine

/-! ### setInput -/

@[simp] theorem setInput_localTime (n : Fin 16) (l : InputLine) (s : State) :
    (setInput n l s).localTime = s.localTime := rfl
@[simp] theorem setInput_resetHeld (n : Fin 16) (l : InputLine) (s : State) :
    (setInput n l s).resetHeld = s.resetHeld := rfl
@[simp] theorem setInput_part (n : Fin 16) (l : InputLine) (s : State) : (setInput n l s).part = s.part := rfl
@[simp] theorem setInput_startError (n : Fin 16) (l : InputLine) (s : State) :
    (setInput n l s).startError = s.startError := rfl
@[simp] theorem setInput_starting (n : Fin 16) (l : InputLine) (s : State) :
    (setInput n l s).starting = s.starting := rfl
@[simp] theorem setInput_setupLo (n : Fin 16) (l : InputLine) (s : State) :
    (setInput n l s).setupLo = s.setupLo := rfl
@[simp] theorem setInput_setupHi (n : Fin 16) (l : InputLine) (s : State) :
    (setInput n l s).setupHi = s.setupHi := rfl
@[simp] theorem setInput_intCause (n : Fin 16) (l : InputLine) (s : State) :
    (setInput n l s).intCause = s.intCause := rfl
@[simp] theorem setInput_intEnable (n : Fin 16) (l : InputLine) (s : State) :
    (setInput n l s).intEnable = s.intEnable := rfl
@[simp] theorem setInput_intRises (n : Fin 16) (l : InputLine) (s : State) :
    (setInput n l s).intRises = s.intRises := rfl
@[simp] theorem setInput_intMessages (n : Fin 16) (l : InputLine) (s : State) :
    (setInput n l s).intMessages = s.intMessages := rfl
@[simp] theorem setInput_geom (n : Fin 16) (l : InputLine) (s : State) : (setInput n l s).geom = s.geom := rfl
@[simp] theorem setInput_ringCounters (n : Fin 16) (l : InputLine) (s : State) :
    (setInput n l s).ringCounters = s.ringCounters := rfl
@[simp] theorem setInput_hostMem (n : Fin 16) (l : InputLine) (s : State) :
    (setInput n l s).hostMem = s.hostMem := rfl
@[simp] theorem setInput_issued (n : Fin 16) (l : InputLine) (s : State) : (setInput n l s).issued = s.issued := rfl
@[simp] theorem setInput_indexWrites (n : Fin 16) (l : InputLine) (s :
    State) : (setInput n l s).indexWrites = s.indexWrites := rfl
@[simp] theorem setInput_bufWrites (n : Fin 16) (l : InputLine) (s : State) :
    (setInput n l s).bufWrites = s.bufWrites := rfl
@[simp] theorem setInput_executing (n : Fin 16) (l : InputLine) (s : State) :
    (setInput n l s).executing = s.executing := rfl
@[simp] theorem setInput_cmdRead (n : Fin 16) (l : InputLine) (s : State) :
    (setInput n l s).cmdRead = s.cmdRead := rfl
@[simp] theorem setInput_deferred (n : Fin 16) (l : InputLine) (s : State) :
    (setInput n l s).deferred = s.deferred := rfl
@[simp] theorem setInput_choices (n : Fin 16) (l : InputLine) (s : State) :
    (setInput n l s).choices = s.choices := rfl
@[simp] theorem setInput_intake (n : Fin 16) (l : InputLine) (s : State) : (setInput n l s).intake = s.intake := rfl
@[simp] theorem setInput_intakeOpen (n : Fin 16) (l : InputLine) (s : State) :
    (setInput n l s).intakeOpen = s.intakeOpen := rfl
@[simp] theorem setInput_deciding (n : Fin 16) (l : InputLine) (s : State) :
    (setInput n l s).deciding = s.deciding := rfl
@[simp] theorem setInput_announcing (n : Fin 16) (l : InputLine) (s : State) :
    (setInput n l s).announcing = s.announcing := rfl
@[simp] theorem setInput_handover (n : Fin 16) (l : InputLine) (s : State) :
    (setInput n l s).handover = s.handover := rfl
@[simp] theorem setInput_unrouted (n : Fin 16) (l : InputLine) (s : State) :
    (setInput n l s).unrouted = s.unrouted := rfl
@[simp] theorem setInput_routes (n : Fin 16) (l : InputLine) (s : State) : (setInput n l s).routes = s.routes := rfl
@[simp] theorem setInput_hold (n : Fin 16) (l : InputLine) (s : State) : (setInput n l s).hold = s.hold := rfl
@[simp] theorem setInput_holdCounters (n : Fin 16) (l : InputLine) (s : State) :
    (setInput n l s).holdCounters = s.holdCounters := rfl
@[simp] theorem setInput_discardedAtStop (n : Fin 16) (l : InputLine) (s : State) :
    (setInput n l s).discardedAtStop = s.discardedAtStop := rfl
@[simp] theorem setInput_tags (n : Fin 16) (l : InputLine) (s : State) : (setInput n l s).tags = s.tags := rfl
@[simp] theorem setInput_delivery (n : Fin 16) (l : InputLine) (s : State) :
    (setInput n l s).delivery = s.delivery := rfl
@[simp] theorem setInput_inputs (n : Fin 16) (l : InputLine) (s : State) :
    (setInput n l s).inputs = s.inputs.set n l := rfl
@[simp] theorem setInput_outputs (n : Fin 16) (l : InputLine) (s : State) :
    (setInput n l s).outputs = s.outputs := rfl
@[simp] theorem setInput_link (n : Fin 16) (l : InputLine) (s : State) : (setInput n l s).link = s.link := rfl
@[simp] theorem setInput_faults (n : Fin 16) (l : InputLine) (s : State) : (setInput n l s).faults = s.faults := rfl
@[simp] theorem setInput_raises (n : Fin 16) (l : InputLine) (s : State) : (setInput n l s).raises = s.raises := rfl
@[simp] theorem setInput_faultNotices (n : Fin 16) (l : InputLine) (s : State) :
    (setInput n l s).faultNotices = s.faultNotices := rfl
@[simp] theorem setInput_linkNotices (n : Fin 16) (l : InputLine) (s : State) :
    (setInput n l s).linkNotices = s.linkNotices := rfl
@[simp] theorem setInput_pending (n : Fin 16) (l : InputLine) (s : State) :
    (setInput n l s).pending = s.pending := rfl

/-! ### setOutput -/

@[simp] theorem setOutput_localTime (n : Fin 16) (o : OutputLine) (s : State) :
    (setOutput n o s).localTime = s.localTime := rfl
@[simp] theorem setOutput_resetHeld (n : Fin 16) (o : OutputLine) (s : State) :
    (setOutput n o s).resetHeld = s.resetHeld := rfl
@[simp] theorem setOutput_part (n : Fin 16) (o : OutputLine) (s : State) : (setOutput n o s).part = s.part := rfl
@[simp] theorem setOutput_startError (n : Fin 16) (o : OutputLine) (s : State) :
    (setOutput n o s).startError = s.startError := rfl
@[simp] theorem setOutput_starting (n : Fin 16) (o : OutputLine) (s : State) :
    (setOutput n o s).starting = s.starting := rfl
@[simp] theorem setOutput_setupLo (n : Fin 16) (o : OutputLine) (s : State) :
    (setOutput n o s).setupLo = s.setupLo := rfl
@[simp] theorem setOutput_setupHi (n : Fin 16) (o : OutputLine) (s : State) :
    (setOutput n o s).setupHi = s.setupHi := rfl
@[simp] theorem setOutput_intCause (n : Fin 16) (o : OutputLine) (s : State) :
    (setOutput n o s).intCause = s.intCause := rfl
@[simp] theorem setOutput_intEnable (n : Fin 16) (o : OutputLine) (s : State) :
    (setOutput n o s).intEnable = s.intEnable := rfl
@[simp] theorem setOutput_intRises (n : Fin 16) (o : OutputLine) (s : State) :
    (setOutput n o s).intRises = s.intRises := rfl
@[simp] theorem setOutput_intMessages (n : Fin 16) (o : OutputLine) (s : State) :
    (setOutput n o s).intMessages = s.intMessages := rfl
@[simp] theorem setOutput_geom (n : Fin 16) (o : OutputLine) (s : State) : (setOutput n o s).geom = s.geom := rfl
@[simp] theorem setOutput_ringCounters (n : Fin 16) (o : OutputLine) (s : State) :
    (setOutput n o s).ringCounters = s.ringCounters := rfl
@[simp] theorem setOutput_hostMem (n : Fin 16) (o : OutputLine) (s : State) :
    (setOutput n o s).hostMem = s.hostMem := rfl
@[simp] theorem setOutput_issued (n : Fin 16) (o : OutputLine) (s : State) :
    (setOutput n o s).issued = s.issued := rfl
@[simp] theorem setOutput_indexWrites (n : Fin 16) (o : OutputLine) (s :
    State) : (setOutput n o s).indexWrites = s.indexWrites := rfl
@[simp] theorem setOutput_bufWrites (n : Fin 16) (o : OutputLine) (s : State) :
    (setOutput n o s).bufWrites = s.bufWrites := rfl
@[simp] theorem setOutput_executing (n : Fin 16) (o : OutputLine) (s : State) :
    (setOutput n o s).executing = s.executing := rfl
@[simp] theorem setOutput_cmdRead (n : Fin 16) (o : OutputLine) (s : State) :
    (setOutput n o s).cmdRead = s.cmdRead := rfl
@[simp] theorem setOutput_deferred (n : Fin 16) (o : OutputLine) (s : State) :
    (setOutput n o s).deferred = s.deferred := rfl
@[simp] theorem setOutput_choices (n : Fin 16) (o : OutputLine) (s : State) :
    (setOutput n o s).choices = s.choices := rfl
@[simp] theorem setOutput_intake (n : Fin 16) (o : OutputLine) (s : State) :
    (setOutput n o s).intake = s.intake := rfl
@[simp] theorem setOutput_intakeOpen (n : Fin 16) (o : OutputLine) (s : State) :
    (setOutput n o s).intakeOpen = s.intakeOpen := rfl
@[simp] theorem setOutput_deciding (n : Fin 16) (o : OutputLine) (s : State) :
    (setOutput n o s).deciding = s.deciding := rfl
@[simp] theorem setOutput_announcing (n : Fin 16) (o : OutputLine) (s : State) :
    (setOutput n o s).announcing = s.announcing := rfl
@[simp] theorem setOutput_handover (n : Fin 16) (o : OutputLine) (s : State) :
    (setOutput n o s).handover = s.handover := rfl
@[simp] theorem setOutput_unrouted (n : Fin 16) (o : OutputLine) (s : State) :
    (setOutput n o s).unrouted = s.unrouted := rfl
@[simp] theorem setOutput_routes (n : Fin 16) (o : OutputLine) (s : State) :
    (setOutput n o s).routes = s.routes := rfl
@[simp] theorem setOutput_hold (n : Fin 16) (o : OutputLine) (s : State) : (setOutput n o s).hold = s.hold := rfl
@[simp] theorem setOutput_holdCounters (n : Fin 16) (o : OutputLine) (s : State) :
    (setOutput n o s).holdCounters = s.holdCounters := rfl
@[simp] theorem setOutput_discardedAtStop (n : Fin 16) (o : OutputLine) (s : State) :
    (setOutput n o s).discardedAtStop = s.discardedAtStop := rfl
@[simp] theorem setOutput_tags (n : Fin 16) (o : OutputLine) (s : State) : (setOutput n o s).tags = s.tags := rfl
@[simp] theorem setOutput_delivery (n : Fin 16) (o : OutputLine) (s : State) :
    (setOutput n o s).delivery = s.delivery := rfl
@[simp] theorem setOutput_inputs (n : Fin 16) (o : OutputLine) (s : State) :
    (setOutput n o s).inputs = s.inputs := rfl
@[simp] theorem setOutput_outputs (n : Fin 16) (o : OutputLine) (s : State) :
    (setOutput n o s).outputs = s.outputs.set n o := rfl
@[simp] theorem setOutput_link (n : Fin 16) (o : OutputLine) (s : State) : (setOutput n o s).link = s.link := rfl
@[simp] theorem setOutput_faults (n : Fin 16) (o : OutputLine) (s : State) :
    (setOutput n o s).faults = s.faults := rfl
@[simp] theorem setOutput_raises (n : Fin 16) (o : OutputLine) (s : State) :
    (setOutput n o s).raises = s.raises := rfl
@[simp] theorem setOutput_faultNotices (n : Fin 16) (o : OutputLine) (s : State) :
    (setOutput n o s).faultNotices = s.faultNotices := rfl
@[simp] theorem setOutput_linkNotices (n : Fin 16) (o : OutputLine) (s : State) :
    (setOutput n o s).linkNotices = s.linkNotices := rfl
@[simp] theorem setOutput_pending (n : Fin 16) (o : OutputLine) (s : State) :
    (setOutput n o s).pending = s.pending := rfl

/-! ### setRoute -/

@[simp] theorem setRoute_localTime (source : Byte) (r : RouteEntry) (s : State) :
    (setRoute source r s).localTime = s.localTime := rfl
@[simp] theorem setRoute_resetHeld (source : Byte) (r : RouteEntry) (s : State) :
    (setRoute source r s).resetHeld = s.resetHeld := rfl
@[simp] theorem setRoute_part (source : Byte) (r : RouteEntry) (s : State) :
    (setRoute source r s).part = s.part := rfl
@[simp] theorem setRoute_startError (source : Byte) (r : RouteEntry) (s : State) :
    (setRoute source r s).startError = s.startError := rfl
@[simp] theorem setRoute_starting (source : Byte) (r : RouteEntry) (s : State) :
    (setRoute source r s).starting = s.starting := rfl
@[simp] theorem setRoute_setupLo (source : Byte) (r : RouteEntry) (s : State) :
    (setRoute source r s).setupLo = s.setupLo := rfl
@[simp] theorem setRoute_setupHi (source : Byte) (r : RouteEntry) (s : State) :
    (setRoute source r s).setupHi = s.setupHi := rfl
@[simp] theorem setRoute_intCause (source : Byte) (r : RouteEntry) (s : State) :
    (setRoute source r s).intCause = s.intCause := rfl
@[simp] theorem setRoute_intEnable (source : Byte) (r : RouteEntry) (s : State) :
    (setRoute source r s).intEnable = s.intEnable := rfl
@[simp] theorem setRoute_intRises (source : Byte) (r : RouteEntry) (s : State) :
    (setRoute source r s).intRises = s.intRises := rfl
@[simp] theorem setRoute_intMessages (source : Byte) (r : RouteEntry) (s : State) :
    (setRoute source r s).intMessages = s.intMessages := rfl
@[simp] theorem setRoute_geom (source : Byte) (r : RouteEntry) (s : State) :
    (setRoute source r s).geom = s.geom := rfl
@[simp] theorem setRoute_ringCounters (source : Byte) (r : RouteEntry) (s : State) :
    (setRoute source r s).ringCounters = s.ringCounters := rfl
@[simp] theorem setRoute_hostMem (source : Byte) (r : RouteEntry) (s : State) :
    (setRoute source r s).hostMem = s.hostMem := rfl
@[simp] theorem setRoute_issued (source : Byte) (r : RouteEntry) (s : State) :
    (setRoute source r s).issued = s.issued := rfl
@[simp] theorem setRoute_indexWrites (source : Byte) (r : RouteEntry) (s :
    State) : (setRoute source r s).indexWrites = s.indexWrites := rfl
@[simp] theorem setRoute_bufWrites (source : Byte) (r : RouteEntry) (s : State) :
    (setRoute source r s).bufWrites = s.bufWrites := rfl
@[simp] theorem setRoute_executing (source : Byte) (r : RouteEntry) (s : State) :
    (setRoute source r s).executing = s.executing := rfl
@[simp] theorem setRoute_cmdRead (source : Byte) (r : RouteEntry) (s : State) :
    (setRoute source r s).cmdRead = s.cmdRead := rfl
@[simp] theorem setRoute_deferred (source : Byte) (r : RouteEntry) (s : State) :
    (setRoute source r s).deferred = s.deferred := rfl
@[simp] theorem setRoute_choices (source : Byte) (r : RouteEntry) (s : State) :
    (setRoute source r s).choices = s.choices := rfl
@[simp] theorem setRoute_intake (source : Byte) (r : RouteEntry) (s : State) :
    (setRoute source r s).intake = s.intake := rfl
@[simp] theorem setRoute_intakeOpen (source : Byte) (r : RouteEntry) (s : State) :
    (setRoute source r s).intakeOpen = s.intakeOpen := rfl
@[simp] theorem setRoute_deciding (source : Byte) (r : RouteEntry) (s : State) :
    (setRoute source r s).deciding = s.deciding := rfl
@[simp] theorem setRoute_announcing (source : Byte) (r : RouteEntry) (s : State) :
    (setRoute source r s).announcing = s.announcing := rfl
@[simp] theorem setRoute_handover (source : Byte) (r : RouteEntry) (s : State) :
    (setRoute source r s).handover = s.handover := rfl
@[simp] theorem setRoute_unrouted (source : Byte) (r : RouteEntry) (s : State) :
    (setRoute source r s).unrouted = s.unrouted := rfl
@[simp] theorem setRoute_routes (source : Byte) (r : RouteEntry) (s : State) :
    (setRoute source r s).routes = s.routes.set (routeIndex source) r := rfl
@[simp] theorem setRoute_hold (source : Byte) (r : RouteEntry) (s : State) :
    (setRoute source r s).hold = s.hold := rfl
@[simp] theorem setRoute_holdCounters (source : Byte) (r : RouteEntry) (s : State) :
    (setRoute source r s).holdCounters = s.holdCounters := rfl
@[simp] theorem setRoute_discardedAtStop (source : Byte) (r : RouteEntry) (s : State) :
    (setRoute source r s).discardedAtStop = s.discardedAtStop := rfl
@[simp] theorem setRoute_tags (source : Byte) (r : RouteEntry) (s : State) :
    (setRoute source r s).tags = s.tags := rfl
@[simp] theorem setRoute_delivery (source : Byte) (r : RouteEntry) (s : State) :
    (setRoute source r s).delivery = s.delivery := rfl
@[simp] theorem setRoute_inputs (source : Byte) (r : RouteEntry) (s : State) :
    (setRoute source r s).inputs = s.inputs := rfl
@[simp] theorem setRoute_outputs (source : Byte) (r : RouteEntry) (s : State) :
    (setRoute source r s).outputs = s.outputs := rfl
@[simp] theorem setRoute_link (source : Byte) (r : RouteEntry) (s : State) :
    (setRoute source r s).link = s.link := rfl
@[simp] theorem setRoute_faults (source : Byte) (r : RouteEntry) (s : State) :
    (setRoute source r s).faults = s.faults := rfl
@[simp] theorem setRoute_raises (source : Byte) (r : RouteEntry) (s : State) :
    (setRoute source r s).raises = s.raises := rfl
@[simp] theorem setRoute_faultNotices (source : Byte) (r : RouteEntry) (s : State) :
    (setRoute source r s).faultNotices = s.faultNotices := rfl
@[simp] theorem setRoute_linkNotices (source : Byte) (r : RouteEntry) (s : State) :
    (setRoute source r s).linkNotices = s.linkNotices := rfl
@[simp] theorem setRoute_pending (source : Byte) (r : RouteEntry) (s : State) :
    (setRoute source r s).pending = s.pending := rfl

/-! ### countRoute -/

@[simp] theorem countRoute_localTime (source : Byte) (f : RouteCounters → RouteCounters) (s : State) :
    (countRoute source f s).localTime = s.localTime := rfl
@[simp] theorem countRoute_resetHeld (source : Byte) (f : RouteCounters → RouteCounters) (s : State) :
    (countRoute source f s).resetHeld = s.resetHeld := rfl
@[simp] theorem countRoute_part (source : Byte) (f : RouteCounters → RouteCounters) (s : State) :
    (countRoute source f s).part = s.part := rfl
@[simp] theorem countRoute_startError (source : Byte) (f : RouteCounters → RouteCounters) (s : State) :
    (countRoute source f s).startError = s.startError := rfl
@[simp] theorem countRoute_starting (source : Byte) (f : RouteCounters → RouteCounters) (s : State) :
    (countRoute source f s).starting = s.starting := rfl
@[simp] theorem countRoute_setupLo (source : Byte) (f : RouteCounters → RouteCounters) (s : State) :
    (countRoute source f s).setupLo = s.setupLo := rfl
@[simp] theorem countRoute_setupHi (source : Byte) (f : RouteCounters → RouteCounters) (s : State) :
    (countRoute source f s).setupHi = s.setupHi := rfl
@[simp] theorem countRoute_intCause (source : Byte) (f : RouteCounters → RouteCounters) (s : State) :
    (countRoute source f s).intCause = s.intCause := rfl
@[simp] theorem countRoute_intEnable (source : Byte) (f : RouteCounters → RouteCounters) (s : State) :
    (countRoute source f s).intEnable = s.intEnable := rfl
@[simp] theorem countRoute_intRises (source : Byte) (f : RouteCounters → RouteCounters) (s : State) :
    (countRoute source f s).intRises = s.intRises := rfl
@[simp] theorem countRoute_intMessages (source : Byte) (f : RouteCounters → RouteCounters) (s : State) :
    (countRoute source f s).intMessages = s.intMessages := rfl
@[simp] theorem countRoute_geom (source : Byte) (f : RouteCounters → RouteCounters) (s : State) :
    (countRoute source f s).geom = s.geom := rfl
@[simp] theorem countRoute_ringCounters (source : Byte) (f : RouteCounters → RouteCounters) (s : State) :
    (countRoute source f s).ringCounters = s.ringCounters := rfl
@[simp] theorem countRoute_hostMem (source : Byte) (f : RouteCounters → RouteCounters) (s : State) :
    (countRoute source f s).hostMem = s.hostMem := rfl
@[simp] theorem countRoute_issued (source : Byte) (f : RouteCounters → RouteCounters) (s : State) :
    (countRoute source f s).issued = s.issued := rfl
@[simp] theorem countRoute_indexWrites (source : Byte) (f : RouteCounters → RouteCounters) (s :
    State) : (countRoute source f s).indexWrites = s.indexWrites := rfl
@[simp] theorem countRoute_bufWrites (source : Byte) (f : RouteCounters → RouteCounters) (s : State) :
    (countRoute source f s).bufWrites = s.bufWrites := rfl
@[simp] theorem countRoute_executing (source : Byte) (f : RouteCounters → RouteCounters) (s : State) :
    (countRoute source f s).executing = s.executing := rfl
@[simp] theorem countRoute_cmdRead (source : Byte) (f : RouteCounters → RouteCounters) (s : State) :
    (countRoute source f s).cmdRead = s.cmdRead := rfl
@[simp] theorem countRoute_deferred (source : Byte) (f : RouteCounters → RouteCounters) (s : State) :
    (countRoute source f s).deferred = s.deferred := rfl
@[simp] theorem countRoute_choices (source : Byte) (f : RouteCounters → RouteCounters) (s : State) :
    (countRoute source f s).choices = s.choices := rfl
@[simp] theorem countRoute_intake (source : Byte) (f : RouteCounters → RouteCounters) (s : State) :
    (countRoute source f s).intake = s.intake := rfl
@[simp] theorem countRoute_intakeOpen (source : Byte) (f : RouteCounters → RouteCounters) (s : State) :
    (countRoute source f s).intakeOpen = s.intakeOpen := rfl
@[simp] theorem countRoute_deciding (source : Byte) (f : RouteCounters → RouteCounters) (s : State) :
    (countRoute source f s).deciding = s.deciding := rfl
@[simp] theorem countRoute_announcing (source : Byte) (f : RouteCounters → RouteCounters) (s : State) :
    (countRoute source f s).announcing = s.announcing := rfl
@[simp] theorem countRoute_handover (source : Byte) (f : RouteCounters → RouteCounters) (s : State) :
    (countRoute source f s).handover = s.handover := rfl
@[simp] theorem countRoute_unrouted (source : Byte) (f : RouteCounters → RouteCounters) (s : State) :
    (countRoute source f s).unrouted = s.unrouted := rfl
@[simp] theorem countRoute_routes (source : Byte) (f : RouteCounters → RouteCounters) (s : State) :
    (countRoute source f s).routes = s.routes.set (routeIndex source)
      { routeOf s source with counters := f (routeOf s source).counters } := rfl
@[simp] theorem countRoute_hold (source : Byte) (f : RouteCounters → RouteCounters) (s : State) :
    (countRoute source f s).hold = s.hold := rfl
@[simp] theorem countRoute_holdCounters (source : Byte) (f : RouteCounters → RouteCounters) (s : State) :
    (countRoute source f s).holdCounters = s.holdCounters := rfl
@[simp] theorem countRoute_discardedAtStop (source : Byte) (f : RouteCounters → RouteCounters) (s : State) :
    (countRoute source f s).discardedAtStop = s.discardedAtStop := rfl
@[simp] theorem countRoute_tags (source : Byte) (f : RouteCounters → RouteCounters) (s : State) :
    (countRoute source f s).tags = s.tags := rfl
@[simp] theorem countRoute_delivery (source : Byte) (f : RouteCounters → RouteCounters) (s : State) :
    (countRoute source f s).delivery = s.delivery := rfl
@[simp] theorem countRoute_inputs (source : Byte) (f : RouteCounters → RouteCounters) (s : State) :
    (countRoute source f s).inputs = s.inputs := rfl
@[simp] theorem countRoute_outputs (source : Byte) (f : RouteCounters → RouteCounters) (s : State) :
    (countRoute source f s).outputs = s.outputs := rfl
@[simp] theorem countRoute_link (source : Byte) (f : RouteCounters → RouteCounters) (s : State) :
    (countRoute source f s).link = s.link := rfl
@[simp] theorem countRoute_faults (source : Byte) (f : RouteCounters → RouteCounters) (s : State) :
    (countRoute source f s).faults = s.faults := rfl
@[simp] theorem countRoute_raises (source : Byte) (f : RouteCounters → RouteCounters) (s : State) :
    (countRoute source f s).raises = s.raises := rfl
@[simp] theorem countRoute_faultNotices (source : Byte) (f : RouteCounters → RouteCounters) (s : State) :
    (countRoute source f s).faultNotices = s.faultNotices := rfl
@[simp] theorem countRoute_linkNotices (source : Byte) (f : RouteCounters → RouteCounters) (s : State) :
    (countRoute source f s).linkNotices = s.linkNotices := rfl
@[simp] theorem countRoute_pending (source : Byte) (f : RouteCounters → RouteCounters) (s : State) :
    (countRoute source f s).pending = s.pending := rfl

/-! ### onLink -/

@[simp] theorem onLink_localTime (f : Link → Link) (s : State) : (onLink f s).localTime = s.localTime := rfl
@[simp] theorem onLink_resetHeld (f : Link → Link) (s : State) : (onLink f s).resetHeld = s.resetHeld := rfl
@[simp] theorem onLink_part (f : Link → Link) (s : State) : (onLink f s).part = s.part := rfl
@[simp] theorem onLink_startError (f : Link → Link) (s : State) : (onLink f s).startError = s.startError := rfl
@[simp] theorem onLink_starting (f : Link → Link) (s : State) : (onLink f s).starting = s.starting := rfl
@[simp] theorem onLink_setupLo (f : Link → Link) (s : State) : (onLink f s).setupLo = s.setupLo := rfl
@[simp] theorem onLink_setupHi (f : Link → Link) (s : State) : (onLink f s).setupHi = s.setupHi := rfl
@[simp] theorem onLink_intCause (f : Link → Link) (s : State) : (onLink f s).intCause = s.intCause := rfl
@[simp] theorem onLink_intEnable (f : Link → Link) (s : State) : (onLink f s).intEnable = s.intEnable := rfl
@[simp] theorem onLink_intRises (f : Link → Link) (s : State) : (onLink f s).intRises = s.intRises := rfl
@[simp] theorem onLink_intMessages (f : Link → Link) (s : State) : (onLink f s).intMessages = s.intMessages := rfl
@[simp] theorem onLink_geom (f : Link → Link) (s : State) : (onLink f s).geom = s.geom := rfl
@[simp] theorem onLink_ringCounters (f : Link → Link) (s : State) : (onLink f s).ringCounters = s.ringCounters := rfl
@[simp] theorem onLink_hostMem (f : Link → Link) (s : State) : (onLink f s).hostMem = s.hostMem := rfl
@[simp] theorem onLink_issued (f : Link → Link) (s : State) : (onLink f s).issued = s.issued := rfl
@[simp] theorem onLink_indexWrites (f : Link → Link) (s : State) : (onLink f s).indexWrites = s.indexWrites := rfl
@[simp] theorem onLink_bufWrites (f : Link → Link) (s : State) : (onLink f s).bufWrites = s.bufWrites := rfl
@[simp] theorem onLink_executing (f : Link → Link) (s : State) : (onLink f s).executing = s.executing := rfl
@[simp] theorem onLink_cmdRead (f : Link → Link) (s : State) : (onLink f s).cmdRead = s.cmdRead := rfl
@[simp] theorem onLink_deferred (f : Link → Link) (s : State) : (onLink f s).deferred = s.deferred := rfl
@[simp] theorem onLink_choices (f : Link → Link) (s : State) : (onLink f s).choices = s.choices := rfl
@[simp] theorem onLink_intake (f : Link → Link) (s : State) : (onLink f s).intake = s.intake := rfl
@[simp] theorem onLink_intakeOpen (f : Link → Link) (s : State) : (onLink f s).intakeOpen = s.intakeOpen := rfl
@[simp] theorem onLink_deciding (f : Link → Link) (s : State) : (onLink f s).deciding = s.deciding := rfl
@[simp] theorem onLink_announcing (f : Link → Link) (s : State) : (onLink f s).announcing = s.announcing := rfl
@[simp] theorem onLink_handover (f : Link → Link) (s : State) : (onLink f s).handover = s.handover := rfl
@[simp] theorem onLink_unrouted (f : Link → Link) (s : State) : (onLink f s).unrouted = s.unrouted := rfl
@[simp] theorem onLink_routes (f : Link → Link) (s : State) : (onLink f s).routes = s.routes := rfl
@[simp] theorem onLink_hold (f : Link → Link) (s : State) : (onLink f s).hold = s.hold := rfl
@[simp] theorem onLink_holdCounters (f : Link → Link) (s : State) : (onLink f s).holdCounters = s.holdCounters := rfl
@[simp] theorem onLink_discardedAtStop (f : Link → Link) (s : State) :
    (onLink f s).discardedAtStop = s.discardedAtStop := rfl
@[simp] theorem onLink_tags (f : Link → Link) (s : State) : (onLink f s).tags = s.tags := rfl
@[simp] theorem onLink_delivery (f : Link → Link) (s : State) : (onLink f s).delivery = s.delivery := rfl
@[simp] theorem onLink_inputs (f : Link → Link) (s : State) : (onLink f s).inputs = s.inputs := rfl
@[simp] theorem onLink_outputs (f : Link → Link) (s : State) : (onLink f s).outputs = s.outputs := rfl
@[simp] theorem onLink_link (f : Link → Link) (s : State) : (onLink f s).link = f s.link := rfl
@[simp] theorem onLink_faults (f : Link → Link) (s : State) : (onLink f s).faults = s.faults := rfl
@[simp] theorem onLink_raises (f : Link → Link) (s : State) : (onLink f s).raises = s.raises := rfl
@[simp] theorem onLink_faultNotices (f : Link → Link) (s : State) : (onLink f s).faultNotices = s.faultNotices := rfl
@[simp] theorem onLink_linkNotices (f : Link → Link) (s : State) : (onLink f s).linkNotices = s.linkNotices := rfl
@[simp] theorem onLink_pending (f : Link → Link) (s : State) : (onLink f s).pending = s.pending := rfl

/-! ### countLink -/

@[simp] theorem countLink_localTime (f : LinkCounters → LinkCounters) (s : State) :
    (countLink f s).localTime = s.localTime := rfl
@[simp] theorem countLink_resetHeld (f : LinkCounters → LinkCounters) (s : State) :
    (countLink f s).resetHeld = s.resetHeld := rfl
@[simp] theorem countLink_part (f : LinkCounters → LinkCounters) (s : State) : (countLink f s).part = s.part := rfl
@[simp] theorem countLink_startError (f : LinkCounters → LinkCounters) (s : State) :
    (countLink f s).startError = s.startError := rfl
@[simp] theorem countLink_starting (f : LinkCounters → LinkCounters) (s : State) :
    (countLink f s).starting = s.starting := rfl
@[simp] theorem countLink_setupLo (f : LinkCounters → LinkCounters) (s : State) :
    (countLink f s).setupLo = s.setupLo := rfl
@[simp] theorem countLink_setupHi (f : LinkCounters → LinkCounters) (s : State) :
    (countLink f s).setupHi = s.setupHi := rfl
@[simp] theorem countLink_intCause (f : LinkCounters → LinkCounters) (s : State) :
    (countLink f s).intCause = s.intCause := rfl
@[simp] theorem countLink_intEnable (f : LinkCounters → LinkCounters) (s : State) :
    (countLink f s).intEnable = s.intEnable := rfl
@[simp] theorem countLink_intRises (f : LinkCounters → LinkCounters) (s : State) :
    (countLink f s).intRises = s.intRises := rfl
@[simp] theorem countLink_intMessages (f : LinkCounters → LinkCounters) (s : State) :
    (countLink f s).intMessages = s.intMessages := rfl
@[simp] theorem countLink_geom (f : LinkCounters → LinkCounters) (s : State) : (countLink f s).geom = s.geom := rfl
@[simp] theorem countLink_ringCounters (f : LinkCounters → LinkCounters) (s : State) :
    (countLink f s).ringCounters = s.ringCounters := rfl
@[simp] theorem countLink_hostMem (f : LinkCounters → LinkCounters) (s : State) :
    (countLink f s).hostMem = s.hostMem := rfl
@[simp] theorem countLink_issued (f : LinkCounters → LinkCounters) (s : State) :
    (countLink f s).issued = s.issued := rfl
@[simp] theorem countLink_indexWrites (f : LinkCounters → LinkCounters) (s :
    State) : (countLink f s).indexWrites = s.indexWrites := rfl
@[simp] theorem countLink_bufWrites (f : LinkCounters → LinkCounters) (s : State) :
    (countLink f s).bufWrites = s.bufWrites := rfl
@[simp] theorem countLink_executing (f : LinkCounters → LinkCounters) (s : State) :
    (countLink f s).executing = s.executing := rfl
@[simp] theorem countLink_cmdRead (f : LinkCounters → LinkCounters) (s : State) :
    (countLink f s).cmdRead = s.cmdRead := rfl
@[simp] theorem countLink_deferred (f : LinkCounters → LinkCounters) (s : State) :
    (countLink f s).deferred = s.deferred := rfl
@[simp] theorem countLink_choices (f : LinkCounters → LinkCounters) (s : State) :
    (countLink f s).choices = s.choices := rfl
@[simp] theorem countLink_intake (f : LinkCounters → LinkCounters) (s : State) :
    (countLink f s).intake = s.intake := rfl
@[simp] theorem countLink_intakeOpen (f : LinkCounters → LinkCounters) (s : State) :
    (countLink f s).intakeOpen = s.intakeOpen := rfl
@[simp] theorem countLink_deciding (f : LinkCounters → LinkCounters) (s : State) :
    (countLink f s).deciding = s.deciding := rfl
@[simp] theorem countLink_announcing (f : LinkCounters → LinkCounters) (s : State) :
    (countLink f s).announcing = s.announcing := rfl
@[simp] theorem countLink_handover (f : LinkCounters → LinkCounters) (s : State) :
    (countLink f s).handover = s.handover := rfl
@[simp] theorem countLink_unrouted (f : LinkCounters → LinkCounters) (s : State) :
    (countLink f s).unrouted = s.unrouted := rfl
@[simp] theorem countLink_routes (f : LinkCounters → LinkCounters) (s : State) :
    (countLink f s).routes = s.routes := rfl
@[simp] theorem countLink_hold (f : LinkCounters → LinkCounters) (s : State) : (countLink f s).hold = s.hold := rfl
@[simp] theorem countLink_holdCounters (f : LinkCounters → LinkCounters) (s : State) :
    (countLink f s).holdCounters = s.holdCounters := rfl
@[simp] theorem countLink_discardedAtStop (f : LinkCounters → LinkCounters) (s : State) :
    (countLink f s).discardedAtStop = s.discardedAtStop := rfl
@[simp] theorem countLink_tags (f : LinkCounters → LinkCounters) (s : State) : (countLink f s).tags = s.tags := rfl
@[simp] theorem countLink_delivery (f : LinkCounters → LinkCounters) (s : State) :
    (countLink f s).delivery = s.delivery := rfl
@[simp] theorem countLink_inputs (f : LinkCounters → LinkCounters) (s : State) :
    (countLink f s).inputs = s.inputs := rfl
@[simp] theorem countLink_outputs (f : LinkCounters → LinkCounters) (s : State) :
    (countLink f s).outputs = s.outputs := rfl
@[simp] theorem countLink_link (f : LinkCounters → LinkCounters) (s : State) :
    (countLink f s).link = { s.link with counters := f s.link.counters } := rfl
@[simp] theorem countLink_faults (f : LinkCounters → LinkCounters) (s : State) :
    (countLink f s).faults = s.faults := rfl
@[simp] theorem countLink_raises (f : LinkCounters → LinkCounters) (s : State) :
    (countLink f s).raises = s.raises := rfl
@[simp] theorem countLink_faultNotices (f : LinkCounters → LinkCounters) (s : State) :
    (countLink f s).faultNotices = s.faultNotices := rfl
@[simp] theorem countLink_linkNotices (f : LinkCounters → LinkCounters) (s : State) :
    (countLink f s).linkNotices = s.linkNotices := rfl
@[simp] theorem countLink_pending (f : LinkCounters → LinkCounters) (s : State) :
    (countLink f s).pending = s.pending := rfl

/-! ### raiseFault -/

@[simp] theorem raiseFault_localTime (c : FaultClass) (x : Word) (s : State) :
    (raiseFault c x s).localTime = s.localTime := rfl
@[simp] theorem raiseFault_resetHeld (c : FaultClass) (x : Word) (s : State) :
    (raiseFault c x s).resetHeld = s.resetHeld := rfl
@[simp] theorem raiseFault_part (c : FaultClass) (x : Word) (s : State) : (raiseFault c x s).part = s.part := rfl
@[simp] theorem raiseFault_startError (c : FaultClass) (x : Word) (s : State) :
    (raiseFault c x s).startError = s.startError := rfl
@[simp] theorem raiseFault_starting (c : FaultClass) (x : Word) (s : State) :
    (raiseFault c x s).starting = s.starting := rfl
@[simp] theorem raiseFault_setupLo (c : FaultClass) (x : Word) (s : State) :
    (raiseFault c x s).setupLo = s.setupLo := rfl
@[simp] theorem raiseFault_setupHi (c : FaultClass) (x : Word) (s : State) :
    (raiseFault c x s).setupHi = s.setupHi := rfl
@[simp] theorem raiseFault_intCause (c : FaultClass) (x : Word) (s : State) :
    (raiseFault c x s).intCause = s.intCause := rfl
@[simp] theorem raiseFault_intEnable (c : FaultClass) (x : Word) (s : State) :
    (raiseFault c x s).intEnable = s.intEnable := rfl
@[simp] theorem raiseFault_intRises (c : FaultClass) (x : Word) (s : State) :
    (raiseFault c x s).intRises = s.intRises := rfl
@[simp] theorem raiseFault_intMessages (c : FaultClass) (x : Word) (s : State) :
    (raiseFault c x s).intMessages = s.intMessages := rfl
@[simp] theorem raiseFault_geom (c : FaultClass) (x : Word) (s : State) : (raiseFault c x s).geom = s.geom := rfl
@[simp] theorem raiseFault_ringCounters (c : FaultClass) (x : Word) (s : State) :
    (raiseFault c x s).ringCounters = s.ringCounters := rfl
@[simp] theorem raiseFault_hostMem (c : FaultClass) (x : Word) (s : State) :
    (raiseFault c x s).hostMem = s.hostMem := rfl
@[simp] theorem raiseFault_issued (c : FaultClass) (x : Word) (s : State) :
    (raiseFault c x s).issued = s.issued := rfl
@[simp] theorem raiseFault_indexWrites (c : FaultClass) (x : Word) (s :
    State) : (raiseFault c x s).indexWrites = s.indexWrites := rfl
@[simp] theorem raiseFault_bufWrites (c : FaultClass) (x : Word) (s : State) :
    (raiseFault c x s).bufWrites = s.bufWrites := rfl
@[simp] theorem raiseFault_executing (c : FaultClass) (x : Word) (s : State) :
    (raiseFault c x s).executing = s.executing := rfl
@[simp] theorem raiseFault_cmdRead (c : FaultClass) (x : Word) (s : State) :
    (raiseFault c x s).cmdRead = s.cmdRead := rfl
@[simp] theorem raiseFault_deferred (c : FaultClass) (x : Word) (s : State) :
    (raiseFault c x s).deferred = s.deferred := rfl
@[simp] theorem raiseFault_choices (c : FaultClass) (x : Word) (s : State) :
    (raiseFault c x s).choices = s.choices := rfl
@[simp] theorem raiseFault_intake (c : FaultClass) (x : Word) (s : State) :
    (raiseFault c x s).intake = s.intake := rfl
@[simp] theorem raiseFault_intakeOpen (c : FaultClass) (x : Word) (s : State) :
    (raiseFault c x s).intakeOpen = s.intakeOpen := rfl
@[simp] theorem raiseFault_deciding (c : FaultClass) (x : Word) (s : State) :
    (raiseFault c x s).deciding = s.deciding := rfl
@[simp] theorem raiseFault_announcing (c : FaultClass) (x : Word) (s : State) :
    (raiseFault c x s).announcing = s.announcing := rfl
@[simp] theorem raiseFault_handover (c : FaultClass) (x : Word) (s : State) :
    (raiseFault c x s).handover = s.handover := rfl
@[simp] theorem raiseFault_unrouted (c : FaultClass) (x : Word) (s : State) :
    (raiseFault c x s).unrouted = s.unrouted := rfl
@[simp] theorem raiseFault_routes (c : FaultClass) (x : Word) (s : State) :
    (raiseFault c x s).routes = s.routes := rfl
@[simp] theorem raiseFault_hold (c : FaultClass) (x : Word) (s : State) : (raiseFault c x s).hold = s.hold := rfl
@[simp] theorem raiseFault_holdCounters (c : FaultClass) (x : Word) (s : State) :
    (raiseFault c x s).holdCounters = s.holdCounters := rfl
@[simp] theorem raiseFault_discardedAtStop (c : FaultClass) (x : Word) (s : State) :
    (raiseFault c x s).discardedAtStop = s.discardedAtStop := rfl
@[simp] theorem raiseFault_tags (c : FaultClass) (x : Word) (s : State) : (raiseFault c x s).tags = s.tags := rfl
@[simp] theorem raiseFault_delivery (c : FaultClass) (x : Word) (s : State) :
    (raiseFault c x s).delivery = s.delivery := rfl
@[simp] theorem raiseFault_inputs (c : FaultClass) (x : Word) (s : State) :
    (raiseFault c x s).inputs = s.inputs := rfl
@[simp] theorem raiseFault_outputs (c : FaultClass) (x : Word) (s : State) :
    (raiseFault c x s).outputs = s.outputs := rfl
@[simp] theorem raiseFault_link (c : FaultClass) (x : Word) (s : State) : (raiseFault c x s).link = s.link := rfl
@[simp] theorem raiseFault_faults (c : FaultClass) (x : Word) (s : State) :
    (raiseFault c x s).faults = s.faults := rfl
@[simp] theorem raiseFault_raises (c : FaultClass) (x : Word) (s : State) :
    (raiseFault c x s).raises = s.raises ++ [⟨c, x⟩] := rfl
@[simp] theorem raiseFault_faultNotices (c : FaultClass) (x : Word) (s : State) :
    (raiseFault c x s).faultNotices = s.faultNotices := rfl
@[simp] theorem raiseFault_linkNotices (c : FaultClass) (x : Word) (s : State) :
    (raiseFault c x s).linkNotices = s.linkNotices := rfl
@[simp] theorem raiseFault_pending (c : FaultClass) (x : Word) (s : State) :
    (raiseFault c x s).pending = s.pending := rfl

/-! ### writeHost -/

@[simp] theorem writeHost_localTime (a : Nat) (bytes : List Byte) (s : State) :
    (writeHost a bytes s).localTime = s.localTime := rfl
@[simp] theorem writeHost_resetHeld (a : Nat) (bytes : List Byte) (s : State) :
    (writeHost a bytes s).resetHeld = s.resetHeld := rfl
@[simp] theorem writeHost_part (a : Nat) (bytes : List Byte) (s : State) : (writeHost a bytes s).part = s.part := rfl
@[simp] theorem writeHost_startError (a : Nat) (bytes : List Byte) (s : State) :
    (writeHost a bytes s).startError = s.startError := rfl
@[simp] theorem writeHost_starting (a : Nat) (bytes : List Byte) (s : State) :
    (writeHost a bytes s).starting = s.starting := rfl
@[simp] theorem writeHost_setupLo (a : Nat) (bytes : List Byte) (s : State) :
    (writeHost a bytes s).setupLo = s.setupLo := rfl
@[simp] theorem writeHost_setupHi (a : Nat) (bytes : List Byte) (s : State) :
    (writeHost a bytes s).setupHi = s.setupHi := rfl
@[simp] theorem writeHost_intCause (a : Nat) (bytes : List Byte) (s : State) :
    (writeHost a bytes s).intCause = s.intCause := rfl
@[simp] theorem writeHost_intEnable (a : Nat) (bytes : List Byte) (s : State) :
    (writeHost a bytes s).intEnable = s.intEnable := rfl
@[simp] theorem writeHost_intRises (a : Nat) (bytes : List Byte) (s : State) :
    (writeHost a bytes s).intRises = s.intRises := rfl
@[simp] theorem writeHost_intMessages (a : Nat) (bytes : List Byte) (s : State) :
    (writeHost a bytes s).intMessages = s.intMessages := rfl
@[simp] theorem writeHost_geom (a : Nat) (bytes : List Byte) (s : State) : (writeHost a bytes s).geom = s.geom := rfl
@[simp] theorem writeHost_ringCounters (a : Nat) (bytes : List Byte) (s : State) :
    (writeHost a bytes s).ringCounters = s.ringCounters := rfl
@[simp] theorem writeHost_hostMem (a : Nat) (bytes : List Byte) (s : State) :
    (writeHost a bytes s).hostMem = Memory.writeBytes s.hostMem a bytes := rfl
@[simp] theorem writeHost_issued (a : Nat) (bytes : List Byte) (s : State) :
    (writeHost a bytes s).issued = s.issued := rfl
@[simp] theorem writeHost_indexWrites (a : Nat) (bytes : List Byte) (s :
    State) : (writeHost a bytes s).indexWrites = s.indexWrites := rfl
@[simp] theorem writeHost_bufWrites (a : Nat) (bytes : List Byte) (s : State) :
    (writeHost a bytes s).bufWrites = s.bufWrites := rfl
@[simp] theorem writeHost_executing (a : Nat) (bytes : List Byte) (s : State) :
    (writeHost a bytes s).executing = s.executing := rfl
@[simp] theorem writeHost_cmdRead (a : Nat) (bytes : List Byte) (s : State) :
    (writeHost a bytes s).cmdRead = s.cmdRead := rfl
@[simp] theorem writeHost_deferred (a : Nat) (bytes : List Byte) (s : State) :
    (writeHost a bytes s).deferred = s.deferred := rfl
@[simp] theorem writeHost_choices (a : Nat) (bytes : List Byte) (s : State) :
    (writeHost a bytes s).choices = s.choices := rfl
@[simp] theorem writeHost_intake (a : Nat) (bytes : List Byte) (s : State) :
    (writeHost a bytes s).intake = s.intake := rfl
@[simp] theorem writeHost_intakeOpen (a : Nat) (bytes : List Byte) (s : State) :
    (writeHost a bytes s).intakeOpen = s.intakeOpen := rfl
@[simp] theorem writeHost_deciding (a : Nat) (bytes : List Byte) (s : State) :
    (writeHost a bytes s).deciding = s.deciding := rfl
@[simp] theorem writeHost_announcing (a : Nat) (bytes : List Byte) (s : State) :
    (writeHost a bytes s).announcing = s.announcing := rfl
@[simp] theorem writeHost_handover (a : Nat) (bytes : List Byte) (s : State) :
    (writeHost a bytes s).handover = s.handover := rfl
@[simp] theorem writeHost_unrouted (a : Nat) (bytes : List Byte) (s : State) :
    (writeHost a bytes s).unrouted = s.unrouted := rfl
@[simp] theorem writeHost_routes (a : Nat) (bytes : List Byte) (s : State) :
    (writeHost a bytes s).routes = s.routes := rfl
@[simp] theorem writeHost_hold (a : Nat) (bytes : List Byte) (s : State) : (writeHost a bytes s).hold = s.hold := rfl
@[simp] theorem writeHost_holdCounters (a : Nat) (bytes : List Byte) (s : State) :
    (writeHost a bytes s).holdCounters = s.holdCounters := rfl
@[simp] theorem writeHost_discardedAtStop (a : Nat) (bytes : List Byte) (s : State) :
    (writeHost a bytes s).discardedAtStop = s.discardedAtStop := rfl
@[simp] theorem writeHost_tags (a : Nat) (bytes : List Byte) (s : State) : (writeHost a bytes s).tags = s.tags := rfl
@[simp] theorem writeHost_delivery (a : Nat) (bytes : List Byte) (s : State) :
    (writeHost a bytes s).delivery = s.delivery := rfl
@[simp] theorem writeHost_inputs (a : Nat) (bytes : List Byte) (s : State) :
    (writeHost a bytes s).inputs = s.inputs := rfl
@[simp] theorem writeHost_outputs (a : Nat) (bytes : List Byte) (s : State) :
    (writeHost a bytes s).outputs = s.outputs := rfl
@[simp] theorem writeHost_link (a : Nat) (bytes : List Byte) (s : State) : (writeHost a bytes s).link = s.link := rfl
@[simp] theorem writeHost_faults (a : Nat) (bytes : List Byte) (s : State) :
    (writeHost a bytes s).faults = s.faults := rfl
@[simp] theorem writeHost_raises (a : Nat) (bytes : List Byte) (s : State) :
    (writeHost a bytes s).raises = s.raises := rfl
@[simp] theorem writeHost_faultNotices (a : Nat) (bytes : List Byte) (s : State) :
    (writeHost a bytes s).faultNotices = s.faultNotices := rfl
@[simp] theorem writeHost_linkNotices (a : Nat) (bytes : List Byte) (s : State) :
    (writeHost a bytes s).linkNotices = s.linkNotices := rfl
@[simp] theorem writeHost_pending (a : Nat) (bytes : List Byte) (s : State) :
    (writeHost a bytes s).pending = s.pending := rfl

/-! ### writeIndex -/

@[simp] theorem writeIndex_localTime (status : Quad) (offset value : Nat) (s : State) :
    (writeIndex status offset value s).localTime = s.localTime := rfl
@[simp] theorem writeIndex_resetHeld (status : Quad) (offset value : Nat) (s : State) :
    (writeIndex status offset value s).resetHeld = s.resetHeld := rfl
@[simp] theorem writeIndex_part (status : Quad) (offset value : Nat) (s : State) :
    (writeIndex status offset value s).part = s.part := rfl
@[simp] theorem writeIndex_startError (status : Quad) (offset value : Nat) (s : State) :
    (writeIndex status offset value s).startError = s.startError := rfl
@[simp] theorem writeIndex_starting (status : Quad) (offset value : Nat) (s : State) :
    (writeIndex status offset value s).starting = s.starting := rfl
@[simp] theorem writeIndex_setupLo (status : Quad) (offset value : Nat) (s : State) :
    (writeIndex status offset value s).setupLo = s.setupLo := rfl
@[simp] theorem writeIndex_setupHi (status : Quad) (offset value : Nat) (s : State) :
    (writeIndex status offset value s).setupHi = s.setupHi := rfl
@[simp] theorem writeIndex_intCause (status : Quad) (offset value : Nat) (s : State) :
    (writeIndex status offset value s).intCause = s.intCause := rfl
@[simp] theorem writeIndex_intEnable (status : Quad) (offset value : Nat) (s : State) :
    (writeIndex status offset value s).intEnable = s.intEnable := rfl
@[simp] theorem writeIndex_intRises (status : Quad) (offset value : Nat) (s : State) :
    (writeIndex status offset value s).intRises = s.intRises := rfl
@[simp] theorem writeIndex_intMessages (status : Quad) (offset value : Nat) (s : State) :
    (writeIndex status offset value s).intMessages = s.intMessages := rfl
@[simp] theorem writeIndex_geom (status : Quad) (offset value : Nat) (s : State) :
    (writeIndex status offset value s).geom = s.geom := rfl
@[simp] theorem writeIndex_ringCounters (status : Quad) (offset value : Nat) (s : State) :
    (writeIndex status offset value s).ringCounters = s.ringCounters := rfl
@[simp] theorem writeIndex_hostMem (status : Quad) (offset value : Nat) (s : State) :
    (writeIndex status offset value s).hostMem = Memory.writeBytes s.hostMem (status.toNat + offset) (le 4 value) := rfl
@[simp] theorem writeIndex_issued (status : Quad) (offset value : Nat) (s : State) :
    (writeIndex status offset value s).issued = s.issued := rfl
@[simp] theorem writeIndex_indexWrites (status : Quad) (offset value : Nat) (s :
    State) : (writeIndex status offset value s).indexWrites = s.indexWrites := rfl
@[simp] theorem writeIndex_bufWrites (status : Quad) (offset value : Nat) (s : State) :
    (writeIndex status offset value s).bufWrites = s.bufWrites := rfl
@[simp] theorem writeIndex_executing (status : Quad) (offset value : Nat) (s : State) :
    (writeIndex status offset value s).executing = s.executing := rfl
@[simp] theorem writeIndex_cmdRead (status : Quad) (offset value : Nat) (s : State) :
    (writeIndex status offset value s).cmdRead = s.cmdRead := rfl
@[simp] theorem writeIndex_deferred (status : Quad) (offset value : Nat) (s : State) :
    (writeIndex status offset value s).deferred = s.deferred := rfl
@[simp] theorem writeIndex_choices (status : Quad) (offset value : Nat) (s : State) :
    (writeIndex status offset value s).choices = s.choices := rfl
@[simp] theorem writeIndex_intake (status : Quad) (offset value : Nat) (s : State) :
    (writeIndex status offset value s).intake = s.intake := rfl
@[simp] theorem writeIndex_intakeOpen (status : Quad) (offset value : Nat) (s : State) :
    (writeIndex status offset value s).intakeOpen = s.intakeOpen := rfl
@[simp] theorem writeIndex_deciding (status : Quad) (offset value : Nat) (s : State) :
    (writeIndex status offset value s).deciding = s.deciding := rfl
@[simp] theorem writeIndex_announcing (status : Quad) (offset value : Nat) (s : State) :
    (writeIndex status offset value s).announcing = s.announcing := rfl
@[simp] theorem writeIndex_handover (status : Quad) (offset value : Nat) (s : State) :
    (writeIndex status offset value s).handover = s.handover := rfl
@[simp] theorem writeIndex_unrouted (status : Quad) (offset value : Nat) (s : State) :
    (writeIndex status offset value s).unrouted = s.unrouted := rfl
@[simp] theorem writeIndex_routes (status : Quad) (offset value : Nat) (s : State) :
    (writeIndex status offset value s).routes = s.routes := rfl
@[simp] theorem writeIndex_hold (status : Quad) (offset value : Nat) (s : State) :
    (writeIndex status offset value s).hold = s.hold := rfl
@[simp] theorem writeIndex_holdCounters (status : Quad) (offset value : Nat) (s : State) :
    (writeIndex status offset value s).holdCounters = s.holdCounters := rfl
@[simp] theorem writeIndex_discardedAtStop (status : Quad) (offset value : Nat) (s : State) :
    (writeIndex status offset value s).discardedAtStop = s.discardedAtStop := rfl
@[simp] theorem writeIndex_tags (status : Quad) (offset value : Nat) (s : State) :
    (writeIndex status offset value s).tags = s.tags := rfl
@[simp] theorem writeIndex_delivery (status : Quad) (offset value : Nat) (s : State) :
    (writeIndex status offset value s).delivery = s.delivery := rfl
@[simp] theorem writeIndex_inputs (status : Quad) (offset value : Nat) (s : State) :
    (writeIndex status offset value s).inputs = s.inputs := rfl
@[simp] theorem writeIndex_outputs (status : Quad) (offset value : Nat) (s : State) :
    (writeIndex status offset value s).outputs = s.outputs := rfl
@[simp] theorem writeIndex_link (status : Quad) (offset value : Nat) (s : State) :
    (writeIndex status offset value s).link = s.link := rfl
@[simp] theorem writeIndex_faults (status : Quad) (offset value : Nat) (s : State) :
    (writeIndex status offset value s).faults = s.faults := rfl
@[simp] theorem writeIndex_raises (status : Quad) (offset value : Nat) (s : State) :
    (writeIndex status offset value s).raises = s.raises := rfl
@[simp] theorem writeIndex_faultNotices (status : Quad) (offset value : Nat) (s : State) :
    (writeIndex status offset value s).faultNotices = s.faultNotices := rfl
@[simp] theorem writeIndex_linkNotices (status : Quad) (offset value : Nat) (s : State) :
    (writeIndex status offset value s).linkNotices = s.linkNotices := rfl
@[simp] theorem writeIndex_pending (status : Quad) (offset value : Nat) (s : State) :
    (writeIndex status offset value s).pending = s.pending := rfl

/-! ### makeIndexWrite -/

@[simp] theorem makeIndexWrite_localTime (field : IndexField) (value : Nat) (s : State) :
    (makeIndexWrite field value s).localTime = s.localTime := rfl
@[simp] theorem makeIndexWrite_resetHeld (field : IndexField) (value : Nat) (s : State) :
    (makeIndexWrite field value s).resetHeld = s.resetHeld := rfl
@[simp] theorem makeIndexWrite_part (field : IndexField) (value : Nat) (s : State) :
    (makeIndexWrite field value s).part = s.part := rfl
@[simp] theorem makeIndexWrite_startError (field : IndexField) (value : Nat) (s : State) :
    (makeIndexWrite field value s).startError = s.startError := rfl
@[simp] theorem makeIndexWrite_starting (field : IndexField) (value : Nat) (s : State) :
    (makeIndexWrite field value s).starting = s.starting := rfl
@[simp] theorem makeIndexWrite_setupLo (field : IndexField) (value : Nat) (s : State) :
    (makeIndexWrite field value s).setupLo = s.setupLo := rfl
@[simp] theorem makeIndexWrite_setupHi (field : IndexField) (value : Nat) (s : State) :
    (makeIndexWrite field value s).setupHi = s.setupHi := rfl
@[simp] theorem makeIndexWrite_intCause (field : IndexField) (value : Nat) (s : State) :
    (makeIndexWrite field value s).intCause = s.intCause := rfl
@[simp] theorem makeIndexWrite_intEnable (field : IndexField) (value : Nat) (s : State) :
    (makeIndexWrite field value s).intEnable = s.intEnable := rfl
@[simp] theorem makeIndexWrite_intRises (field : IndexField) (value : Nat) (s : State) :
    (makeIndexWrite field value s).intRises = s.intRises := rfl
@[simp] theorem makeIndexWrite_intMessages (field : IndexField) (value : Nat) (s : State) :
    (makeIndexWrite field value s).intMessages = s.intMessages := rfl
@[simp] theorem makeIndexWrite_geom (field : IndexField) (value : Nat) (s : State) :
    (makeIndexWrite field value s).geom = s.geom := rfl
@[simp] theorem makeIndexWrite_ringCounters (field : IndexField) (value : Nat) (s : State) :
    (makeIndexWrite field value s).ringCounters = s.ringCounters := rfl
@[simp] theorem makeIndexWrite_hostMem (field : IndexField) (value : Nat) (s : State) :
    (makeIndexWrite field value s).hostMem = s.hostMem := rfl
@[simp] theorem makeIndexWrite_issued (field : IndexField) (value : Nat) (s : State) :
    (makeIndexWrite field value s).issued = s.issued := rfl
@[simp] theorem makeIndexWrite_indexWrites (field : IndexField) (value : Nat) (s : State) :
    (makeIndexWrite field value s).indexWrites = s.indexWrites ++ [⟨field, value⟩] := rfl
@[simp] theorem makeIndexWrite_bufWrites (field : IndexField) (value : Nat) (s : State) :
    (makeIndexWrite field value s).bufWrites = s.bufWrites := rfl
@[simp] theorem makeIndexWrite_executing (field : IndexField) (value : Nat) (s : State) :
    (makeIndexWrite field value s).executing = s.executing := rfl
@[simp] theorem makeIndexWrite_cmdRead (field : IndexField) (value : Nat) (s : State) :
    (makeIndexWrite field value s).cmdRead = s.cmdRead := rfl
@[simp] theorem makeIndexWrite_deferred (field : IndexField) (value : Nat) (s : State) :
    (makeIndexWrite field value s).deferred = s.deferred := rfl
@[simp] theorem makeIndexWrite_choices (field : IndexField) (value : Nat) (s : State) :
    (makeIndexWrite field value s).choices = s.choices := rfl
@[simp] theorem makeIndexWrite_intake (field : IndexField) (value : Nat) (s : State) :
    (makeIndexWrite field value s).intake = s.intake := rfl
@[simp] theorem makeIndexWrite_intakeOpen (field : IndexField) (value : Nat) (s : State) :
    (makeIndexWrite field value s).intakeOpen = s.intakeOpen := rfl
@[simp] theorem makeIndexWrite_deciding (field : IndexField) (value : Nat) (s : State) :
    (makeIndexWrite field value s).deciding = s.deciding := rfl
@[simp] theorem makeIndexWrite_announcing (field : IndexField) (value : Nat) (s : State) :
    (makeIndexWrite field value s).announcing = s.announcing := rfl
@[simp] theorem makeIndexWrite_handover (field : IndexField) (value : Nat) (s : State) :
    (makeIndexWrite field value s).handover = s.handover := rfl
@[simp] theorem makeIndexWrite_unrouted (field : IndexField) (value : Nat) (s : State) :
    (makeIndexWrite field value s).unrouted = s.unrouted := rfl
@[simp] theorem makeIndexWrite_routes (field : IndexField) (value : Nat) (s : State) :
    (makeIndexWrite field value s).routes = s.routes := rfl
@[simp] theorem makeIndexWrite_hold (field : IndexField) (value : Nat) (s : State) :
    (makeIndexWrite field value s).hold = s.hold := rfl
@[simp] theorem makeIndexWrite_holdCounters (field : IndexField) (value : Nat) (s : State) :
    (makeIndexWrite field value s).holdCounters = s.holdCounters := rfl
@[simp] theorem makeIndexWrite_discardedAtStop (field : IndexField) (value : Nat) (s : State) :
    (makeIndexWrite field value s).discardedAtStop = s.discardedAtStop := rfl
@[simp] theorem makeIndexWrite_tags (field : IndexField) (value : Nat) (s : State) :
    (makeIndexWrite field value s).tags = s.tags := rfl
@[simp] theorem makeIndexWrite_delivery (field : IndexField) (value : Nat) (s : State) :
    (makeIndexWrite field value s).delivery = s.delivery := rfl
@[simp] theorem makeIndexWrite_inputs (field : IndexField) (value : Nat) (s : State) :
    (makeIndexWrite field value s).inputs = s.inputs := rfl
@[simp] theorem makeIndexWrite_outputs (field : IndexField) (value : Nat) (s : State) :
    (makeIndexWrite field value s).outputs = s.outputs := rfl
@[simp] theorem makeIndexWrite_link (field : IndexField) (value : Nat) (s : State) :
    (makeIndexWrite field value s).link = s.link := rfl
@[simp] theorem makeIndexWrite_faults (field : IndexField) (value : Nat) (s : State) :
    (makeIndexWrite field value s).faults = s.faults := rfl
@[simp] theorem makeIndexWrite_raises (field : IndexField) (value : Nat) (s : State) :
    (makeIndexWrite field value s).raises = s.raises := rfl
@[simp] theorem makeIndexWrite_faultNotices (field : IndexField) (value : Nat) (s : State) :
    (makeIndexWrite field value s).faultNotices = s.faultNotices := rfl
@[simp] theorem makeIndexWrite_linkNotices (field : IndexField) (value : Nat) (s : State) :
    (makeIndexWrite field value s).linkNotices = s.linkNotices := rfl
@[simp] theorem makeIndexWrite_pending (field : IndexField) (value : Nat) (s : State) :
    (makeIndexWrite field value s).pending = s.pending := rfl

/-! ### setIntRegs -/

@[simp] theorem setIntRegs_localTime (c e : BitVec 7) (s : State) : (setIntRegs c e s).localTime = s.localTime := rfl
@[simp] theorem setIntRegs_resetHeld (c e : BitVec 7) (s : State) : (setIntRegs c e s).resetHeld = s.resetHeld := rfl
@[simp] theorem setIntRegs_part (c e : BitVec 7) (s : State) : (setIntRegs c e s).part = s.part := rfl
@[simp] theorem setIntRegs_startError (c e : BitVec 7) (s : State) :
    (setIntRegs c e s).startError = s.startError := rfl
@[simp] theorem setIntRegs_starting (c e : BitVec 7) (s : State) : (setIntRegs c e s).starting = s.starting := rfl
@[simp] theorem setIntRegs_setupLo (c e : BitVec 7) (s : State) : (setIntRegs c e s).setupLo = s.setupLo := rfl
@[simp] theorem setIntRegs_setupHi (c e : BitVec 7) (s : State) : (setIntRegs c e s).setupHi = s.setupHi := rfl
@[simp] theorem setIntRegs_intCause (c e : BitVec 7) (s : State) : (setIntRegs c e s).intCause = c := rfl
@[simp] theorem setIntRegs_intEnable (c e : BitVec 7) (s : State) : (setIntRegs c e s).intEnable = e := rfl
@[simp] theorem setIntRegs_geom (c e : BitVec 7) (s : State) : (setIntRegs c e s).geom = s.geom := rfl
@[simp] theorem setIntRegs_ringCounters (c e : BitVec 7) (s : State) :
    (setIntRegs c e s).ringCounters = s.ringCounters := rfl
@[simp] theorem setIntRegs_hostMem (c e : BitVec 7) (s : State) : (setIntRegs c e s).hostMem = s.hostMem := rfl
@[simp] theorem setIntRegs_issued (c e : BitVec 7) (s : State) : (setIntRegs c e s).issued = s.issued := rfl
@[simp] theorem setIntRegs_indexWrites (c e : BitVec 7) (s :
    State) : (setIntRegs c e s).indexWrites = s.indexWrites := rfl
@[simp] theorem setIntRegs_bufWrites (c e : BitVec 7) (s : State) : (setIntRegs c e s).bufWrites = s.bufWrites := rfl
@[simp] theorem setIntRegs_executing (c e : BitVec 7) (s : State) : (setIntRegs c e s).executing = s.executing := rfl
@[simp] theorem setIntRegs_cmdRead (c e : BitVec 7) (s : State) : (setIntRegs c e s).cmdRead = s.cmdRead := rfl
@[simp] theorem setIntRegs_deferred (c e : BitVec 7) (s : State) : (setIntRegs c e s).deferred = s.deferred := rfl
@[simp] theorem setIntRegs_choices (c e : BitVec 7) (s : State) : (setIntRegs c e s).choices = s.choices := rfl
@[simp] theorem setIntRegs_intake (c e : BitVec 7) (s : State) : (setIntRegs c e s).intake = s.intake := rfl
@[simp] theorem setIntRegs_intakeOpen (c e : BitVec 7) (s : State) :
    (setIntRegs c e s).intakeOpen = s.intakeOpen := rfl
@[simp] theorem setIntRegs_deciding (c e : BitVec 7) (s : State) : (setIntRegs c e s).deciding = s.deciding := rfl
@[simp] theorem setIntRegs_announcing (c e : BitVec 7) (s : State) : (setIntRegs c e s).announcing = s.announcing := rfl
@[simp] theorem setIntRegs_handover (c e : BitVec 7) (s : State) : (setIntRegs c e s).handover = s.handover := rfl
@[simp] theorem setIntRegs_unrouted (c e : BitVec 7) (s : State) : (setIntRegs c e s).unrouted = s.unrouted := rfl
@[simp] theorem setIntRegs_routes (c e : BitVec 7) (s : State) : (setIntRegs c e s).routes = s.routes := rfl
@[simp] theorem setIntRegs_hold (c e : BitVec 7) (s : State) : (setIntRegs c e s).hold = s.hold := rfl
@[simp] theorem setIntRegs_holdCounters (c e : BitVec 7) (s : State) :
    (setIntRegs c e s).holdCounters = s.holdCounters := rfl
@[simp] theorem setIntRegs_discardedAtStop (c e : BitVec 7) (s : State) :
    (setIntRegs c e s).discardedAtStop = s.discardedAtStop := rfl
@[simp] theorem setIntRegs_tags (c e : BitVec 7) (s : State) : (setIntRegs c e s).tags = s.tags := rfl
@[simp] theorem setIntRegs_delivery (c e : BitVec 7) (s : State) : (setIntRegs c e s).delivery = s.delivery := rfl
@[simp] theorem setIntRegs_inputs (c e : BitVec 7) (s : State) : (setIntRegs c e s).inputs = s.inputs := rfl
@[simp] theorem setIntRegs_outputs (c e : BitVec 7) (s : State) : (setIntRegs c e s).outputs = s.outputs := rfl
@[simp] theorem setIntRegs_link (c e : BitVec 7) (s : State) : (setIntRegs c e s).link = s.link := rfl
@[simp] theorem setIntRegs_faults (c e : BitVec 7) (s : State) : (setIntRegs c e s).faults = s.faults := rfl
@[simp] theorem setIntRegs_raises (c e : BitVec 7) (s : State) : (setIntRegs c e s).raises = s.raises := rfl
@[simp] theorem setIntRegs_faultNotices (c e : BitVec 7) (s : State) :
    (setIntRegs c e s).faultNotices = s.faultNotices := rfl
@[simp] theorem setIntRegs_linkNotices (c e : BitVec 7) (s : State) :
    (setIntRegs c e s).linkNotices = s.linkNotices := rfl
@[simp] theorem setIntRegs_pending (c e : BitVec 7) (s : State) : (setIntRegs c e s).pending = s.pending := rfl

/-! ### setCause -/

@[simp] theorem setCause_localTime (c : Cause) (s : State) : (setCause c s).localTime = s.localTime := rfl
@[simp] theorem setCause_resetHeld (c : Cause) (s : State) : (setCause c s).resetHeld = s.resetHeld := rfl
@[simp] theorem setCause_part (c : Cause) (s : State) : (setCause c s).part = s.part := rfl
@[simp] theorem setCause_startError (c : Cause) (s : State) : (setCause c s).startError = s.startError := rfl
@[simp] theorem setCause_starting (c : Cause) (s : State) : (setCause c s).starting = s.starting := rfl
@[simp] theorem setCause_setupLo (c : Cause) (s : State) : (setCause c s).setupLo = s.setupLo := rfl
@[simp] theorem setCause_setupHi (c : Cause) (s : State) : (setCause c s).setupHi = s.setupHi := rfl
@[simp] theorem setCause_intCause (c : Cause) (s : State) : (setCause c s).intCause = s.intCause ||| c.mask := rfl
@[simp] theorem setCause_intEnable (c : Cause) (s : State) : (setCause c s).intEnable = s.intEnable := rfl
@[simp] theorem setCause_geom (c : Cause) (s : State) : (setCause c s).geom = s.geom := rfl
@[simp] theorem setCause_ringCounters (c : Cause) (s : State) : (setCause c s).ringCounters = s.ringCounters := rfl
@[simp] theorem setCause_hostMem (c : Cause) (s : State) : (setCause c s).hostMem = s.hostMem := rfl
@[simp] theorem setCause_issued (c : Cause) (s : State) : (setCause c s).issued = s.issued := rfl
@[simp] theorem setCause_indexWrites (c : Cause) (s : State) : (setCause c s).indexWrites = s.indexWrites := rfl
@[simp] theorem setCause_bufWrites (c : Cause) (s : State) : (setCause c s).bufWrites = s.bufWrites := rfl
@[simp] theorem setCause_executing (c : Cause) (s : State) : (setCause c s).executing = s.executing := rfl
@[simp] theorem setCause_cmdRead (c : Cause) (s : State) : (setCause c s).cmdRead = s.cmdRead := rfl
@[simp] theorem setCause_deferred (c : Cause) (s : State) : (setCause c s).deferred = s.deferred := rfl
@[simp] theorem setCause_choices (c : Cause) (s : State) : (setCause c s).choices = s.choices := rfl
@[simp] theorem setCause_intake (c : Cause) (s : State) : (setCause c s).intake = s.intake := rfl
@[simp] theorem setCause_intakeOpen (c : Cause) (s : State) : (setCause c s).intakeOpen = s.intakeOpen := rfl
@[simp] theorem setCause_deciding (c : Cause) (s : State) : (setCause c s).deciding = s.deciding := rfl
@[simp] theorem setCause_announcing (c : Cause) (s : State) : (setCause c s).announcing = s.announcing := rfl
@[simp] theorem setCause_handover (c : Cause) (s : State) : (setCause c s).handover = s.handover := rfl
@[simp] theorem setCause_unrouted (c : Cause) (s : State) : (setCause c s).unrouted = s.unrouted := rfl
@[simp] theorem setCause_routes (c : Cause) (s : State) : (setCause c s).routes = s.routes := rfl
@[simp] theorem setCause_hold (c : Cause) (s : State) : (setCause c s).hold = s.hold := rfl
@[simp] theorem setCause_holdCounters (c : Cause) (s : State) : (setCause c s).holdCounters = s.holdCounters := rfl
@[simp] theorem setCause_discardedAtStop (c : Cause) (s : State) :
    (setCause c s).discardedAtStop = s.discardedAtStop := rfl
@[simp] theorem setCause_tags (c : Cause) (s : State) : (setCause c s).tags = s.tags := rfl
@[simp] theorem setCause_delivery (c : Cause) (s : State) : (setCause c s).delivery = s.delivery := rfl
@[simp] theorem setCause_inputs (c : Cause) (s : State) : (setCause c s).inputs = s.inputs := rfl
@[simp] theorem setCause_outputs (c : Cause) (s : State) : (setCause c s).outputs = s.outputs := rfl
@[simp] theorem setCause_link (c : Cause) (s : State) : (setCause c s).link = s.link := rfl
@[simp] theorem setCause_faults (c : Cause) (s : State) : (setCause c s).faults = s.faults := rfl
@[simp] theorem setCause_raises (c : Cause) (s : State) : (setCause c s).raises = s.raises := rfl
@[simp] theorem setCause_faultNotices (c : Cause) (s : State) : (setCause c s).faultNotices = s.faultNotices := rfl
@[simp] theorem setCause_linkNotices (c : Cause) (s : State) : (setCause c s).linkNotices = s.linkNotices := rfl
@[simp] theorem setCause_pending (c : Cause) (s : State) : (setCause c s).pending = s.pending := rfl

/-! ### joinDeferred -/

@[simp] theorem joinDeferred_localTime (tag : Word) (job : Job) (s : State) :
    (joinDeferred tag job s).localTime = s.localTime := rfl
@[simp] theorem joinDeferred_resetHeld (tag : Word) (job : Job) (s : State) :
    (joinDeferred tag job s).resetHeld = s.resetHeld := rfl
@[simp] theorem joinDeferred_part (tag : Word) (job : Job) (s : State) : (joinDeferred tag job s).part = s.part := rfl
@[simp] theorem joinDeferred_startError (tag : Word) (job : Job) (s : State) :
    (joinDeferred tag job s).startError = s.startError := rfl
@[simp] theorem joinDeferred_starting (tag : Word) (job : Job) (s : State) :
    (joinDeferred tag job s).starting = s.starting := rfl
@[simp] theorem joinDeferred_setupLo (tag : Word) (job : Job) (s : State) :
    (joinDeferred tag job s).setupLo = s.setupLo := rfl
@[simp] theorem joinDeferred_setupHi (tag : Word) (job : Job) (s : State) :
    (joinDeferred tag job s).setupHi = s.setupHi := rfl
@[simp] theorem joinDeferred_intCause (tag : Word) (job : Job) (s : State) :
    (joinDeferred tag job s).intCause = s.intCause := rfl
@[simp] theorem joinDeferred_intEnable (tag : Word) (job : Job) (s : State) :
    (joinDeferred tag job s).intEnable = s.intEnable := rfl
@[simp] theorem joinDeferred_intRises (tag : Word) (job : Job) (s : State) :
    (joinDeferred tag job s).intRises = s.intRises := rfl
@[simp] theorem joinDeferred_intMessages (tag : Word) (job : Job) (s : State) :
    (joinDeferred tag job s).intMessages = s.intMessages := rfl
@[simp] theorem joinDeferred_geom (tag : Word) (job : Job) (s : State) : (joinDeferred tag job s).geom = s.geom := rfl
@[simp] theorem joinDeferred_ringCounters (tag : Word) (job : Job) (s : State) :
    (joinDeferred tag job s).ringCounters = s.ringCounters := rfl
@[simp] theorem joinDeferred_hostMem (tag : Word) (job : Job) (s : State) :
    (joinDeferred tag job s).hostMem = s.hostMem := rfl
@[simp] theorem joinDeferred_issued (tag : Word) (job : Job) (s : State) :
    (joinDeferred tag job s).issued = s.issued := rfl
@[simp] theorem joinDeferred_indexWrites (tag : Word) (job : Job) (s :
    State) : (joinDeferred tag job s).indexWrites = s.indexWrites := rfl
@[simp] theorem joinDeferred_bufWrites (tag : Word) (job : Job) (s : State) :
    (joinDeferred tag job s).bufWrites = s.bufWrites := rfl
@[simp] theorem joinDeferred_executing (tag : Word) (job : Job) (s : State) :
    (joinDeferred tag job s).executing = s.executing := rfl
@[simp] theorem joinDeferred_cmdRead (tag : Word) (job : Job) (s : State) :
    (joinDeferred tag job s).cmdRead = s.cmdRead := rfl
@[simp] theorem joinDeferred_deferred (tag : Word) (job : Job) (s : State) :
    (joinDeferred tag job s).deferred = s.deferred ++ [⟨tag, job⟩] := rfl
@[simp] theorem joinDeferred_choices (tag : Word) (job : Job) (s : State) :
    (joinDeferred tag job s).choices = s.choices := rfl
@[simp] theorem joinDeferred_intake (tag : Word) (job : Job) (s : State) :
    (joinDeferred tag job s).intake = s.intake := rfl
@[simp] theorem joinDeferred_intakeOpen (tag : Word) (job : Job) (s : State) :
    (joinDeferred tag job s).intakeOpen = s.intakeOpen := rfl
@[simp] theorem joinDeferred_deciding (tag : Word) (job : Job) (s : State) :
    (joinDeferred tag job s).deciding = s.deciding := rfl
@[simp] theorem joinDeferred_announcing (tag : Word) (job : Job) (s : State) :
    (joinDeferred tag job s).announcing = s.announcing := rfl
@[simp] theorem joinDeferred_handover (tag : Word) (job : Job) (s : State) :
    (joinDeferred tag job s).handover = s.handover := rfl
@[simp] theorem joinDeferred_unrouted (tag : Word) (job : Job) (s : State) :
    (joinDeferred tag job s).unrouted = s.unrouted := rfl
@[simp] theorem joinDeferred_routes (tag : Word) (job : Job) (s : State) :
    (joinDeferred tag job s).routes = s.routes := rfl
@[simp] theorem joinDeferred_hold (tag : Word) (job : Job) (s : State) : (joinDeferred tag job s).hold = s.hold := rfl
@[simp] theorem joinDeferred_holdCounters (tag : Word) (job : Job) (s : State) :
    (joinDeferred tag job s).holdCounters = s.holdCounters := rfl
@[simp] theorem joinDeferred_discardedAtStop (tag : Word) (job : Job) (s : State) :
    (joinDeferred tag job s).discardedAtStop = s.discardedAtStop := rfl
@[simp] theorem joinDeferred_tags (tag : Word) (job : Job) (s : State) : (joinDeferred tag job s).tags = s.tags := rfl
@[simp] theorem joinDeferred_delivery (tag : Word) (job : Job) (s : State) :
    (joinDeferred tag job s).delivery = s.delivery := rfl
@[simp] theorem joinDeferred_inputs (tag : Word) (job : Job) (s : State) :
    (joinDeferred tag job s).inputs = s.inputs := rfl
@[simp] theorem joinDeferred_outputs (tag : Word) (job : Job) (s : State) :
    (joinDeferred tag job s).outputs = s.outputs := rfl
@[simp] theorem joinDeferred_link (tag : Word) (job : Job) (s : State) : (joinDeferred tag job s).link = s.link := rfl
@[simp] theorem joinDeferred_faults (tag : Word) (job : Job) (s : State) :
    (joinDeferred tag job s).faults = s.faults := rfl
@[simp] theorem joinDeferred_raises (tag : Word) (job : Job) (s : State) :
    (joinDeferred tag job s).raises = s.raises := rfl
@[simp] theorem joinDeferred_faultNotices (tag : Word) (job : Job) (s : State) :
    (joinDeferred tag job s).faultNotices = s.faultNotices := rfl
@[simp] theorem joinDeferred_linkNotices (tag : Word) (job : Job) (s : State) :
    (joinDeferred tag job s).linkNotices = s.linkNotices := rfl
@[simp] theorem joinDeferred_pending (tag : Word) (job : Job) (s : State) :
    (joinDeferred tag job s).pending = s.pending := rfl

/-! ### setStatsJob -/

@[simp] theorem setStatsJob_localTime (j : StatsJob) (s : State) : (setStatsJob j s).localTime = s.localTime := rfl
@[simp] theorem setStatsJob_resetHeld (j : StatsJob) (s : State) : (setStatsJob j s).resetHeld = s.resetHeld := rfl
@[simp] theorem setStatsJob_part (j : StatsJob) (s : State) : (setStatsJob j s).part = s.part := rfl
@[simp] theorem setStatsJob_startError (j : StatsJob) (s : State) : (setStatsJob j s).startError = s.startError := rfl
@[simp] theorem setStatsJob_starting (j : StatsJob) (s : State) : (setStatsJob j s).starting = s.starting := rfl
@[simp] theorem setStatsJob_setupLo (j : StatsJob) (s : State) : (setStatsJob j s).setupLo = s.setupLo := rfl
@[simp] theorem setStatsJob_setupHi (j : StatsJob) (s : State) : (setStatsJob j s).setupHi = s.setupHi := rfl
@[simp] theorem setStatsJob_intCause (j : StatsJob) (s : State) : (setStatsJob j s).intCause = s.intCause := rfl
@[simp] theorem setStatsJob_intEnable (j : StatsJob) (s : State) : (setStatsJob j s).intEnable = s.intEnable := rfl
@[simp] theorem setStatsJob_intRises (j : StatsJob) (s : State) : (setStatsJob j s).intRises = s.intRises := rfl
@[simp] theorem setStatsJob_intMessages (j : StatsJob) (s : State) :
    (setStatsJob j s).intMessages = s.intMessages := rfl
@[simp] theorem setStatsJob_geom (j : StatsJob) (s : State) : (setStatsJob j s).geom = s.geom := rfl
@[simp] theorem setStatsJob_ringCounters (j : StatsJob) (s : State) :
    (setStatsJob j s).ringCounters = s.ringCounters := rfl
@[simp] theorem setStatsJob_hostMem (j : StatsJob) (s : State) : (setStatsJob j s).hostMem = s.hostMem := rfl
@[simp] theorem setStatsJob_issued (j : StatsJob) (s : State) : (setStatsJob j s).issued = s.issued := rfl
@[simp] theorem setStatsJob_indexWrites (j : StatsJob) (s :
    State) : (setStatsJob j s).indexWrites = s.indexWrites := rfl
@[simp] theorem setStatsJob_bufWrites (j : StatsJob) (s : State) : (setStatsJob j s).bufWrites = s.bufWrites := rfl
@[simp] theorem setStatsJob_executing (j : StatsJob) (s : State) : (setStatsJob j s).executing = s.executing := rfl
@[simp] theorem setStatsJob_cmdRead (j : StatsJob) (s : State) : (setStatsJob j s).cmdRead = s.cmdRead := rfl
@[simp] theorem setStatsJob_choices (j : StatsJob) (s : State) : (setStatsJob j s).choices = s.choices := rfl
@[simp] theorem setStatsJob_intake (j : StatsJob) (s : State) : (setStatsJob j s).intake = s.intake := rfl
@[simp] theorem setStatsJob_intakeOpen (j : StatsJob) (s : State) : (setStatsJob j s).intakeOpen = s.intakeOpen := rfl
@[simp] theorem setStatsJob_deciding (j : StatsJob) (s : State) : (setStatsJob j s).deciding = s.deciding := rfl
@[simp] theorem setStatsJob_announcing (j : StatsJob) (s : State) : (setStatsJob j s).announcing = s.announcing := rfl
@[simp] theorem setStatsJob_handover (j : StatsJob) (s : State) : (setStatsJob j s).handover = s.handover := rfl
@[simp] theorem setStatsJob_unrouted (j : StatsJob) (s : State) : (setStatsJob j s).unrouted = s.unrouted := rfl
@[simp] theorem setStatsJob_routes (j : StatsJob) (s : State) : (setStatsJob j s).routes = s.routes := rfl
@[simp] theorem setStatsJob_hold (j : StatsJob) (s : State) : (setStatsJob j s).hold = s.hold := rfl
@[simp] theorem setStatsJob_holdCounters (j : StatsJob) (s : State) :
    (setStatsJob j s).holdCounters = s.holdCounters := rfl
@[simp] theorem setStatsJob_discardedAtStop (j : StatsJob) (s : State) :
    (setStatsJob j s).discardedAtStop = s.discardedAtStop := rfl
@[simp] theorem setStatsJob_tags (j : StatsJob) (s : State) : (setStatsJob j s).tags = s.tags := rfl
@[simp] theorem setStatsJob_delivery (j : StatsJob) (s : State) : (setStatsJob j s).delivery = s.delivery := rfl
@[simp] theorem setStatsJob_inputs (j : StatsJob) (s : State) : (setStatsJob j s).inputs = s.inputs := rfl
@[simp] theorem setStatsJob_outputs (j : StatsJob) (s : State) : (setStatsJob j s).outputs = s.outputs := rfl
@[simp] theorem setStatsJob_link (j : StatsJob) (s : State) : (setStatsJob j s).link = s.link := rfl
@[simp] theorem setStatsJob_faults (j : StatsJob) (s : State) : (setStatsJob j s).faults = s.faults := rfl
@[simp] theorem setStatsJob_raises (j : StatsJob) (s : State) : (setStatsJob j s).raises = s.raises := rfl
@[simp] theorem setStatsJob_faultNotices (j : StatsJob) (s : State) :
    (setStatsJob j s).faultNotices = s.faultNotices := rfl
@[simp] theorem setStatsJob_linkNotices (j : StatsJob) (s : State) :
    (setStatsJob j s).linkNotices = s.linkNotices := rfl
@[simp] theorem setStatsJob_pending (j : StatsJob) (s : State) : (setStatsJob j s).pending = s.pending := rfl

/-! ### resetCapture -/

@[simp] theorem resetCapture_localTime (s : State) : (resetCapture s).localTime = s.localTime := by simp only [resetCapture]
@[simp] theorem resetCapture_resetHeld (s : State) : (resetCapture s).resetHeld = s.resetHeld := by simp only [resetCapture]
@[simp] theorem resetCapture_part (s : State) : (resetCapture s).part = s.part := by simp only [resetCapture]
@[simp] theorem resetCapture_startError (s : State) : (resetCapture s).startError = s.startError := by simp only [resetCapture]
@[simp] theorem resetCapture_starting (s : State) : (resetCapture s).starting = s.starting := by simp only [resetCapture]
@[simp] theorem resetCapture_setupLo (s : State) : (resetCapture s).setupLo = s.setupLo := by simp only [resetCapture]
@[simp] theorem resetCapture_setupHi (s : State) : (resetCapture s).setupHi = s.setupHi := by simp only [resetCapture]
@[simp] theorem resetCapture_intCause (s : State) : (resetCapture s).intCause = s.intCause := by simp only [resetCapture]
@[simp] theorem resetCapture_intEnable (s : State) : (resetCapture s).intEnable = s.intEnable := by simp only [resetCapture]
@[simp] theorem resetCapture_intRises (s : State) : (resetCapture s).intRises = s.intRises := by simp only [resetCapture]
@[simp] theorem resetCapture_intMessages (s : State) : (resetCapture s).intMessages = s.intMessages := by simp only [resetCapture]
@[simp] theorem resetCapture_geom (s : State) : (resetCapture s).geom = s.geom := by simp only [resetCapture]
@[simp] theorem resetCapture_ringCounters (s : State) : (resetCapture s).ringCounters = s.ringCounters := by simp only [resetCapture]
@[simp] theorem resetCapture_hostMem (s : State) : (resetCapture s).hostMem = s.hostMem := by simp only [resetCapture]
@[simp] theorem resetCapture_issued (s : State) : (resetCapture s).issued = s.issued := by simp only [resetCapture]
@[simp] theorem resetCapture_indexWrites (s :
    State) : (resetCapture s).indexWrites = s.indexWrites := by simp only [resetCapture]
@[simp] theorem resetCapture_bufWrites (s : State) : (resetCapture s).bufWrites = s.bufWrites := by simp only [resetCapture]
@[simp] theorem resetCapture_executing (s : State) : (resetCapture s).executing = s.executing := by simp only [resetCapture]
@[simp] theorem resetCapture_cmdRead (s : State) : (resetCapture s).cmdRead = s.cmdRead := by simp only [resetCapture]
@[simp] theorem resetCapture_deferred (s : State) : (resetCapture s).deferred = s.deferred := by simp only [resetCapture]
@[simp] theorem resetCapture_choices (s : State) : (resetCapture s).choices = s.choices := by simp only [resetCapture]
@[simp] theorem resetCapture_intake (s : State) : (resetCapture s).intake = s.intake := by simp only [resetCapture]
@[simp] theorem resetCapture_intakeOpen (s : State) : (resetCapture s).intakeOpen = s.intakeOpen := by simp only [resetCapture]
@[simp] theorem resetCapture_deciding (s : State) : (resetCapture s).deciding = s.deciding := by simp only [resetCapture]
@[simp] theorem resetCapture_announcing (s : State) : (resetCapture s).announcing = s.announcing := by simp only [resetCapture]
@[simp] theorem resetCapture_handover (s : State) : (resetCapture s).handover = s.handover := by simp only [resetCapture]
@[simp] theorem resetCapture_unrouted (s : State) : (resetCapture s).unrouted = s.unrouted := by simp only [resetCapture]
@[simp] theorem resetCapture_routes (s : State) : (resetCapture s).routes = s.routes := by simp only [resetCapture]
@[simp] theorem resetCapture_hold (s : State) : (resetCapture s).hold = s.hold := by simp only [resetCapture]
@[simp] theorem resetCapture_holdCounters (s : State) : (resetCapture s).holdCounters = s.holdCounters := by simp only [resetCapture]
@[simp] theorem resetCapture_discardedAtStop (s : State) : (resetCapture s).discardedAtStop = s.discardedAtStop := by simp only [resetCapture]
@[simp] theorem resetCapture_tags (s : State) : (resetCapture s).tags = s.tags := by simp only [resetCapture]
@[simp] theorem resetCapture_delivery (s : State) : (resetCapture s).delivery = s.delivery := by simp only [resetCapture]
@[simp] theorem resetCapture_inputs (s : State) :
    (resetCapture s).inputs = mapBank InputLine.resetCapture s.inputs := by simp only [resetCapture]
@[simp] theorem resetCapture_outputs (s : State) : (resetCapture s).outputs = s.outputs := by simp only [resetCapture]
@[simp] theorem resetCapture_link (s : State) : (resetCapture s).link = s.link := by simp only [resetCapture]
@[simp] theorem resetCapture_faults (s : State) : (resetCapture s).faults = s.faults := by simp only [resetCapture]
@[simp] theorem resetCapture_raises (s : State) : (resetCapture s).raises = s.raises := by simp only [resetCapture]
@[simp] theorem resetCapture_faultNotices (s : State) : (resetCapture s).faultNotices = s.faultNotices := by simp only [resetCapture]
@[simp] theorem resetCapture_linkNotices (s : State) : (resetCapture s).linkNotices = s.linkNotices := by simp only [resetCapture]
@[simp] theorem resetCapture_pending (s : State) : (resetCapture s).pending = s.pending := by simp only [resetCapture]

/-! ### endPulses -/

@[simp] theorem endPulses_localTime (s : State) : (endPulses s).localTime = s.localTime := by simp only [endPulses]
@[simp] theorem endPulses_resetHeld (s : State) : (endPulses s).resetHeld = s.resetHeld := by simp only [endPulses]
@[simp] theorem endPulses_part (s : State) : (endPulses s).part = s.part := by simp only [endPulses]
@[simp] theorem endPulses_startError (s : State) : (endPulses s).startError = s.startError := by simp only [endPulses]
@[simp] theorem endPulses_starting (s : State) : (endPulses s).starting = s.starting := by simp only [endPulses]
@[simp] theorem endPulses_setupLo (s : State) : (endPulses s).setupLo = s.setupLo := by simp only [endPulses]
@[simp] theorem endPulses_setupHi (s : State) : (endPulses s).setupHi = s.setupHi := by simp only [endPulses]
@[simp] theorem endPulses_intCause (s : State) : (endPulses s).intCause = s.intCause := by simp only [endPulses]
@[simp] theorem endPulses_intEnable (s : State) : (endPulses s).intEnable = s.intEnable := by simp only [endPulses]
@[simp] theorem endPulses_intRises (s : State) : (endPulses s).intRises = s.intRises := by simp only [endPulses]
@[simp] theorem endPulses_intMessages (s : State) : (endPulses s).intMessages = s.intMessages := by simp only [endPulses]
@[simp] theorem endPulses_geom (s : State) : (endPulses s).geom = s.geom := by simp only [endPulses]
@[simp] theorem endPulses_ringCounters (s : State) : (endPulses s).ringCounters = s.ringCounters := by simp only [endPulses]
@[simp] theorem endPulses_hostMem (s : State) : (endPulses s).hostMem = s.hostMem := by simp only [endPulses]
@[simp] theorem endPulses_issued (s : State) : (endPulses s).issued = s.issued := by simp only [endPulses]
@[simp] theorem endPulses_indexWrites (s :
    State) : (endPulses s).indexWrites = s.indexWrites := by simp only [endPulses]
@[simp] theorem endPulses_bufWrites (s : State) : (endPulses s).bufWrites = s.bufWrites := by simp only [endPulses]
@[simp] theorem endPulses_executing (s : State) : (endPulses s).executing = s.executing := by simp only [endPulses]
@[simp] theorem endPulses_cmdRead (s : State) : (endPulses s).cmdRead = s.cmdRead := by simp only [endPulses]
@[simp] theorem endPulses_deferred (s : State) : (endPulses s).deferred = s.deferred := by simp only [endPulses]
@[simp] theorem endPulses_choices (s : State) : (endPulses s).choices = s.choices := by simp only [endPulses]
@[simp] theorem endPulses_intake (s : State) : (endPulses s).intake = s.intake := by simp only [endPulses]
@[simp] theorem endPulses_intakeOpen (s : State) : (endPulses s).intakeOpen = s.intakeOpen := by simp only [endPulses]
@[simp] theorem endPulses_deciding (s : State) : (endPulses s).deciding = s.deciding := by simp only [endPulses]
@[simp] theorem endPulses_announcing (s : State) : (endPulses s).announcing = s.announcing := by simp only [endPulses]
@[simp] theorem endPulses_handover (s : State) : (endPulses s).handover = s.handover := by simp only [endPulses]
@[simp] theorem endPulses_unrouted (s : State) : (endPulses s).unrouted = s.unrouted := by simp only [endPulses]
@[simp] theorem endPulses_routes (s : State) : (endPulses s).routes = s.routes := by simp only [endPulses]
@[simp] theorem endPulses_hold (s : State) : (endPulses s).hold = s.hold := by simp only [endPulses]
@[simp] theorem endPulses_holdCounters (s : State) : (endPulses s).holdCounters = s.holdCounters := by simp only [endPulses]
@[simp] theorem endPulses_discardedAtStop (s : State) : (endPulses s).discardedAtStop = s.discardedAtStop := by simp only [endPulses]
@[simp] theorem endPulses_tags (s : State) : (endPulses s).tags = s.tags := by simp only [endPulses]
@[simp] theorem endPulses_delivery (s : State) : (endPulses s).delivery = s.delivery := by simp only [endPulses]
@[simp] theorem endPulses_inputs (s : State) : (endPulses s).inputs = s.inputs := by simp only [endPulses]
@[simp] theorem endPulses_outputs (s : State) :
    (endPulses s).outputs = mapBank (fun o => { o with pulse := none }) s.outputs := by simp only [endPulses]
@[simp] theorem endPulses_link (s : State) : (endPulses s).link = s.link := by simp only [endPulses]
@[simp] theorem endPulses_faults (s : State) : (endPulses s).faults = s.faults := by simp only [endPulses]
@[simp] theorem endPulses_raises (s : State) : (endPulses s).raises = s.raises := by simp only [endPulses]
@[simp] theorem endPulses_faultNotices (s : State) : (endPulses s).faultNotices = s.faultNotices := by simp only [endPulses]
@[simp] theorem endPulses_linkNotices (s : State) : (endPulses s).linkNotices = s.linkNotices := by simp only [endPulses]
@[simp] theorem endPulses_pending (s : State) : (endPulses s).pending = s.pending := by simp only [endPulses]

end Sys2Proof.Machine
end

