-- ==== Sys2Proof/Laws/Ops.lean ====
section
/-! SUPPORT. What each shared operation can do, said once: counters, offers, records and completions, the deferred set,
the Hold Queue list, the transmit queue, and which fields an operation may change (its `_eq` lemma: the state after is
the state before with those fields alone taken from the result). -/

namespace Sys2Proof.Machine

/-! ### Counters (R188) -/

theorem bump_toNat (c : Counter) : (bump c).toNat = min (c.toNat + 1) (2 ^ 32 - 1) := by
  have hc := c.isLt
  unfold bump
  split
  · rename_i h; subst h; simp
  · rename_i h
    have : c.toNat ≠ 2 ^ 32 - 1 := fun e => h (by
      apply BitVec.eq_of_toNat_eq
      simpa using e)
    rw [BitVec.toNat_add]
    have h1 : (1 : Counter).toNat = 1 := rfl
    omega

theorem bumpBy_toNat (n : Nat) (c : Counter) : (bumpBy n c).toNat = min (c.toNat + n) (2 ^ 32 - 1) := by
  unfold bumpBy
  split
  · simp only [BitVec.toNat_allOnes]; omega
  · simp only [BitVec.toNat_ofNat]; omega

/-! ### Banks -/

@[simp] theorem mapBank_get {α β : Type} {n : Nat} (f : α → β) (v : Vector α n) (i : Nat) (h : i < n) :
    (mapBank f v)[i] = f v[i] := by simp [mapBank]

/-! ### Offers (R6) -/

theorem offerAnswer_accepted_iff (s : State) :
    offerAnswer s = .accepted ↔ s.intakeOpen = true ∧ s.intake.length < Config.intakeCapacity := by
  unfold offerAnswer
  cases s.intakeOpen <;> simp

theorem offerAnswer_full_iff (s : State) :
    offerAnswer s = .full ↔ s.intakeOpen = true ∧ Config.intakeCapacity ≤ s.intake.length := by
  unfold offerAnswer
  cases s.intakeOpen <;> simp

theorem offerAnswer_closed_iff (s : State) : offerAnswer s = .closed ↔ s.intakeOpen = false := by
  unfold offerAnswer
  cases s.intakeOpen <;> simp
  split <;> simp

/-- R6: an offer changes the intake alone. -/
theorem offerEvent_eq (e : Event) (s : State) : offerEvent e s = { s with intake := (offerEvent e s).intake } := by
  unfold offerEvent
  split <;> rfl

/-- R6: an accepted event is the newest of the intake; any other answer leaves the list. -/
theorem offerEvent_intake (e : Event) (s : State) :
    (offerEvent e s).intake = if offerAnswer s = .accepted then s.intake ++ [e] else s.intake := by
  unfold offerEvent
  split <;> simp_all

/-! ### Records and completions (R143, R149, R150) -/

/-- A completion handed over changes the geometry alone. -/
theorem handCompletion_eq (kind : Byte) (tag : Word) (st : Status) (w1 w2 w3 : Word) (s : State) :
    handCompletion kind tag st w1 w2 w3 s = { s with geom := (handCompletion kind tag st w1 w2 w3 s).geom } := by
  unfold handCompletion
  split <;> rfl

/-- R149: a completion handed over is assigned the next slot of the completion ring. -/
theorem handCompletion_geom {s : State} {g : Geometry} (h : s.geom = some g) (kind : Byte) (tag : Word) (st : Status)
    (w1 w2 w3 : Word) :
    (handCompletion kind tag st w1 w2 w3 s).geom
      = some { g with compl := g.compl.assign (.completion kind tag st w1 w2 w3) } := by
  unfold handCompletion
  rw [h]

/-- A record taken for an event ring changes the geometry, the ring counters and the raises alone. -/
theorem takeRecord_eq (ring : Fin 4) (r : HostRecord) (s : State) :
    takeRecord ring r s = { s with
      geom := (takeRecord ring r s).geom
      ringCounters := (takeRecord ring r s).ringCounters
      raises := (takeRecord ring r s).raises } := by
  simp only [takeRecord]
  split
  · rfl
  · split
    · rfl
    · split
      · rfl
      · split <;> rfl

/-- A raise taken changes the fault classes, the notices of the Fault Unit and the interrupt registers alone. -/
theorem takeRaise_eq (r : Raise) (s : State) :
    takeRaise r s = { s with
      faults := (takeRaise r s).faults
      faultNotices := (takeRaise r s).faultNotices
      intCause := (takeRaise r s).intCause
      intRises := (takeRaise r s).intRises
      intMessages := (takeRaise r s).intMessages } := by
  simp only [takeRaise, postFaultNotice]
  split <;> split <;> (try split) <;> rfl

/-- R143: an assignment keeps a ring in service when a slot is free. -/
theorem OutRing.Sound.assign {r : OutRing} (h : r.Sound) (hf : 1 ≤ r.free) (rec : HostRecord) :
    (r.assign rec).unconsumed = r.unconsumed + 1 := by
  have := h.size
  have := h.fill
  have := h.consumer
  simp only [OutRing.free, OutRing.unconsumed, OutRing.assign] at *
  rcases Nat.lt_or_ge r.fill r.consumer with hlt | hge
  · rw [Nat.mod_eq_of_lt (by omega : r.fill + r.size - r.consumer < r.size)] at *
    rw [Nat.mod_eq_of_lt (by omega : r.fill + 1 < r.size), Nat.mod_eq_of_lt (by omega)]
    omega
  · rw [show r.fill + r.size - r.consumer = (r.fill - r.consumer) + r.size by omega, Nat.add_mod_right,
      Nat.mod_eq_of_lt (by omega : r.fill - r.consumer < r.size)] at *
    rcases Nat.lt_or_ge (r.fill + 1) r.size with h1 | h1
    · rw [Nat.mod_eq_of_lt h1, show r.fill + 1 + r.size - r.consumer = (r.fill + 1 - r.consumer) + r.size by omega,
        Nat.add_mod_right, Nat.mod_eq_of_lt (by omega)]
      omega
    · rw [show r.fill + 1 = r.size by omega, Nat.mod_self, Nat.zero_add]
      rcases Nat.eq_zero_or_pos r.consumer with h0 | h0
      · omega
      · rw [Nat.mod_eq_of_lt (by omega)]
        omega

/-! ### The deferred set (R158, R174, R179) -/

/-- A deferred completion changes the geometry and the deferred set alone. -/
theorem finishDeferred_eq (k : DeferredKind) (st : Status) (w1 w2 w3 : Word) (s : State) :
    finishDeferred k st w1 w2 w3 s = { s with
      geom := (finishDeferred k st w1 w2 w3 s).geom
      deferred := (finishDeferred k st w1 w2 w3 s).deferred } := by
  unfold finishDeferred
  split
  · rfl
  · rw [handCompletion_eq]

/-- With no command of the kind in flight nothing completes. -/
theorem finishDeferred_none {k : DeferredKind} {s : State} (h : inFlight k s = false) (st : Status) (w1 w2 w3 : Word) :
    finishDeferred k st w1 w2 w3 s = s := by
  unfold inFlight at h
  unfold finishDeferred
  split
  · rfl
  · rename_i d hd; simp [hd] at h

theorem settleQuiesce_eq (s : State) :
    settleQuiesce s = { s with geom := (settleQuiesce s).geom, deferred := (settleQuiesce s).deferred } := by
  unfold settleQuiesce
  split
  · rw [finishDeferred_eq]
  · rfl

theorem settleFence_eq (s : State) :
    settleFence s = { s with geom := (settleFence s).geom, deferred := (settleFence s).deferred } := by
  unfold settleFence
  split
  · rw [finishDeferred_eq]
  · rfl

/-- Settling changes the geometry and the deferred set alone. -/
theorem settle_eq (s : State) : settle s = { s with geom := (settle s).geom, deferred := (settle s).deferred } := by
  unfold settle
  split
  · rw [settleFence_eq, settleQuiesce_eq]
  · rfl

/-- With nothing ready, settling changes nothing. -/
theorem settle_of_settled {s : State} (h : s.Settled) : settle s = s := by
  unfold State.Settled needsSettle at h
  unfold settle
  split
  · rename_i hp
    rw [hp, Bool.true_and, Bool.or_eq_false_iff] at h
    have hq : settleQuiesce s = s := by
      unfold settleQuiesce
      split
      · rename_i e; simp [e] at h
      · rfl
    rw [hq]
    unfold settleFence
    split
    · rename_i e; simp [e] at h
    · rfl
  · rfl

/-- An immediate completion changes the geometry, the deferred set and the count of choices alone. -/
theorem finishImmediate_eq (kind : Byte) (tag : Word) (st : Status) (w1 w2 w3 : Word) (s : State) :
    finishImmediate kind tag st w1 w2 w3 s = { s with
      geom := (finishImmediate kind tag st w1 w2 w3 s).geom
      deferred := (finishImmediate kind tag st w1 w2 w3 s).deferred
      choices := (finishImmediate kind tag st w1 w2 w3 s).choices } := by
  simp only [finishImmediate]
  split
  · split
    · rw [handCompletion_eq, settle_eq]
    · rw [settle_eq, handCompletion_eq]
  · rw [handCompletion_eq]

/-- With nothing ready, an immediate completion is handed over alone. -/
theorem finishImmediate_of_settled {s : State} (h : s.Settled) (kind : Byte) (tag : Word) (st : Status)
    (w1 w2 w3 : Word) : finishImmediate kind tag st w1 w2 w3 s = handCompletion kind tag st w1 w2 w3 s := by
  unfold State.Settled at h
  simp [finishImmediate, h]

/-! ### Taking commands (R147) -/

/-- The issue of a command record's read changes that alone. -/
theorem commandFetch_eq (s : State) : commandFetch s = { s with cmdRead := (commandFetch s).cmdRead } := by
  unfold commandFetch
  split <;> rfl

/-- The take of a command changes the read outstanding, the geometry, the ring counters and the index writes alone. -/
theorem takeCommand_eq (s : State) :
    takeCommand s = { s with
      cmdRead := (takeCommand s).cmdRead
      geom := (takeCommand s).geom
      ringCounters := (takeCommand s).ringCounters
      indexWrites := (takeCommand s).indexWrites } := by
  unfold takeCommand
  split <;> rfl

/-- Index writes that complete one after another change host memory alone, and keep its canonical form. -/
theorem foldl_writeIndex (status : Quad) (ws : List IndexWrite) : ∀ s : State,
    let t := ws.foldl (fun t w => writeIndex status (indexOffset w.field) w.value t) s
    t = { s with hostMem := t.hostMem } ∧ (Memory.wf s.hostMem → Memory.wf t.hostMem) := by
  induction ws with
  | nil => intro s; exact ⟨rfl, id⟩
  | cons w ws ih =>
    intro s
    obtain ⟨h1, h2⟩ := ih (writeIndex status (indexOffset w.field) w.value s)
    refine ⟨?_, fun h => h2 (Memory.writeBytes_wf _ _ h)⟩
    simp only [List.foldl_cons]
    rw [h1]
    rfl

/-- The index writes of commands that complete together change the index writes outstanding and host memory alone. -/
theorem commandIndexWritten_eq (s : State) :
    commandIndexWritten s = { s with
      indexWrites := (commandIndexWritten s).indexWrites
      hostMem := (commandIndexWritten s).hostMem } := by
  unfold commandIndexWritten
  split
  · rfl
  · dsimp only
    rw [(foldl_writeIndex _ _ _).1]

theorem commandIndexWritten_wf {s : State} (h : Memory.wf s.hostMem) : Memory.wf (commandIndexWritten s).hostMem := by
  unfold commandIndexWritten
  split
  · exact h
  · exact (foldl_writeIndex _ _ _).2 h

/-- R147: outside RUNNING, or with no record read, no command is taken. -/
theorem runCommand_not_taken {s : State} (h : ¬(s.part = .running ∧ s.cmdRead = true)) (falls : Falls)
    (kind : Byte) (tag : Word) (x : Execution) : runCommand falls kind tag x s = s := by
  simp only [runCommand]
  rw [if_neg h]

/-- R157: a command whose execution ends with an immediate answer. -/
theorem runCommand_done {s : State} (hp : s.part = .running) (hr : s.cmdRead = true) {falls : Falls}
    {kind : Byte} {tag : Word} {x : Execution} {u : State} {st : Status} {w1 w2 w3 : Word}
    (h : x falls (takeCommand s) = (u, .done st w1 w2 w3)) :
    runCommand falls kind tag x s = commandFetch (abortLeftovers (finishImmediate kind tag st w1 w2 w3 u)) := by
  simp only [runCommand]
  rw [if_pos ⟨hp, hr⟩]
  simp [h, answerCommand]

/-- Nothing is left to abort while the part is RUNNING. -/
theorem abortLeftovers_running {s : State} (h : s.part = .running) : abortLeftovers s = s := by
  simp [abortLeftovers, h]

/-! ### The Hold Queue list and the tag memory (R38, R55, R56) -/

@[simp] theorem holdInsert_length (h : HoldEntry) (hs : List HoldEntry) :
    (holdInsert h hs).length = hs.length + 1 := by
  induction hs with
  | nil => rfl
  | cons x xs ih => simp only [holdInsert]; split <;> simp [ih]

theorem mem_holdInsert (h x : HoldEntry) (hs : List HoldEntry) : x ∈ holdInsert h hs ↔ x = h ∨ x ∈ hs := by
  induction hs with
  | nil => simp [holdInsert]
  | cons y ys ih =>
    simp only [holdInsert]
    split
    · simp [ih, or_left_comm]
    · simp

/-- R38: an insertion keeps the order of release times. -/
theorem holdInsert_sorted (h : HoldEntry) {hs : List HoldEntry}
    (hs_sorted : (hs.map HoldEntry.release).Pairwise (· ≤ ·)) :
    ((holdInsert h hs).map HoldEntry.release).Pairwise (· ≤ ·) := by
  induction hs with
  | nil => simp [holdInsert]
  | cons x xs ih =>
    simp only [List.map_cons, List.pairwise_cons] at hs_sorted
    simp only [holdInsert]
    split
    · rename_i hle
      simp only [List.map_cons, List.pairwise_cons]
      refine ⟨fun r hr => ?_, ih hs_sorted.2⟩
      obtain ⟨y, hy, rfl⟩ := List.mem_map.1 hr
      rcases (mem_holdInsert h y xs).1 hy with rfl | hy
      · exact hle
      · exact hs_sorted.1 _ (List.mem_map_of_mem hy)
    · rename_i hle
      simp only [List.map_cons, List.pairwise_cons, List.mem_cons]
      refine ⟨?_, hs_sorted⟩
      rintro r (rfl | hr)
      · omega
      · exact le_trans (by omega) (hs_sorted.1 r hr)

@[simp] theorem tagsAfterForward_tags (tag : Word) (ts : List TagRecord) :
    (tagsAfterForward tag ts).map TagRecord.tag = ts.map TagRecord.tag := by
  unfold tagsAfterForward
  rw [List.map_map]
  apply List.map_congr_left
  intro t _
  simp only [Function.comp]
  split <;> rfl

/-! ### The transmit queue (R120, R121) -/

/-- R121: filling the window moves frames from waiting to window and loses none. -/
theorem enterWindow_queueDepth (room : Nat) : ∀ l : Link, (enterWindow room l).queueDepth = l.queueDepth := by
  induction room with
  | zero => intro l; rfl
  | succ n ih =>
    intro l
    simp only [enterWindow]
    split
    · rfl
    · rename_i e rest h
      rw [ih]
      simp only [Link.queueDepth, List.length_append, h, List.length_cons, List.length_nil]
      omega

/-- R121: the window grows by at most the room it has. -/
theorem enterWindow_window_le (room : Nat) : ∀ l : Link,
    (enterWindow room l).window.length ≤ l.window.length + room := by
  induction room with
  | zero => intro l; simp [enterWindow]
  | succ n ih =>
    intro l
    simp only [enterWindow]
    split
    · omega
    · refine le_trans (ih _) ?_
      simp only [List.length_append, List.length_singleton]
      omega

/-- R121: filling the window changes the window, the waiting frames and the next sequence alone. -/
theorem enterWindow_eq (room : Nat) : ∀ l : Link,
    enterWindow room l = { l with
      window := (enterWindow room l).window
      waiting := (enterWindow room l).waiting
      nextSeq := (enterWindow room l).nextSeq } := by
  induction room with
  | zero => intro l; rfl
  | succ n ih =>
    intro l
    simp only [enterWindow]
    split
    · rfl
    · rw [ih]

/-! ### The Router (R18 to R28) -/

/-- A forward request changes the link, the route counters, the tag memory and the raises alone. -/
theorem forward_eq (e : Event) (s : State) :
    forward e s = { s with
      link := (forward e s).link
      routes := (forward e s).routes
      tags := (forward e s).tags
      raises := (forward e s).raises } := by
  simp only [forward]
  split
  · simp only [markForwarded]; split <;> rfl
  · rfl
  · rfl

/-- An insertion changes the Hold Queue, its counters, the route counters and the raises alone. -/
theorem insertHold_eq (h : HoldEntry) (s : State) :
    insertHold h s = { s with
      hold := (insertHold h s).hold
      holdCounters := (insertHold h s).holdCounters
      routes := (insertHold h s).routes
      raises := (insertHold h s).raises } := by
  simp only [insertHold]
  split <;> rfl

/-- The outcome of an event changes the hand-over, the Hold Queue, its counters, the route counters and the raises
alone. -/
theorem decideOutcome_eq (c : RouteConfig) (e : Event) (outputs : BitVec 16) (rings : BitVec 4) (s : State) :
    decideOutcome c e outputs rings s = { s with
      handover := (decideOutcome c e outputs rings s).handover
      hold := (decideOutcome c e outputs rings s).hold
      holdCounters := (decideOutcome c e outputs rings s).holdCounters
      routes := (decideOutcome c e outputs rings s).routes
      raises := (decideOutcome c e outputs rings s).raises } := by
  simp only [decideOutcome]
  split
  · rfl
  · split <;> rfl
  · rw [insertHold_eq]

/-- A decision of the Router changes these fields alone. -/
def OnlyDecisionFields (s t : State) : Prop :=
  t = { s with
    unrouted := t.unrouted, link := t.link, routes := t.routes, tags := t.tags, raises := t.raises
    deciding := t.deciding, handover := t.handover, hold := t.hold, holdCounters := t.holdCounters }

theorem OnlyDecisionFields.trans {s t u : State} (h : OnlyDecisionFields s t) (k : OnlyDecisionFields t u) :
    OnlyDecisionFields s u := by
  unfold OnlyDecisionFields at *
  rw [k, h]

theorem decideLocal_only (c : RouteConfig) (e : Event) (s : State) : OnlyDecisionFields s (decideLocal c e s) := by
  unfold OnlyDecisionFields decideLocal
  dsimp only
  split
  · rfl
  · rw [decideOutcome_eq]

theorem forwardPart_only (c : RouteConfig) (e : Event) (s : State) : OnlyDecisionFields s (forwardPart c e s) := by
  unfold OnlyDecisionFields forwardPart
  split
  · rw [forward_eq]
  · rfl

theorem Deciding.reach_only {d : Deciding} {pause : Option DecisionStage} {run : State → State} {s : State}
    (h : OnlyDecisionFields s (run s)) : OnlyDecisionFields s (d.reach pause run s) := by
  unfold Deciding.reach
  split
  · rfl
  · exact h

theorem decideForward_only (pause : Option DecisionStage) (d : Deciding) (s : State) :
    OnlyDecisionFields s (decideForward pause d s) :=
  (forwardPart_only _ _ s).trans (Deciding.reach_only (decideLocal_only _ _ _))

theorem routeEvent_only (pause : Option DecisionStage) (d : Deciding) (s : State) :
    OnlyDecisionFields s (routeEvent pause d s) :=
  OnlyDecisionFields.trans (t := countRoute d.event.source (fun c => { c with routed := bump c.routed }) s) rfl
    (Deciding.reach_only (decideForward_only _ _ _))

theorem decideReading_only (pause : Option DecisionStage) (d : Deciding) (s : State) :
    OnlyDecisionFields s (decideReading pause d s) := by
  unfold decideReading
  dsimp only
  split
  · rfl
  · split
    · split
      · rfl
      · exact routeEvent_only _ _ _
    · rfl

/-- R18: a decision begun changes the fields of a decision alone. -/
theorem decideEvent_only (pause : Option DecisionStage) (e : Event) (s : State) :
    OnlyDecisionFields s (decideEvent pause e s) := by
  unfold decideEvent
  split
  · rfl
  · exact Deciding.reach_only (decideReading_only _ _ _)

/-- R18: a decision gone on with changes the fields of a decision alone. -/
theorem resumeDecision_only (pause : Option DecisionStage) (d : Deciding) (s : State) :
    OnlyDecisionFields s (resumeDecision pause d s) := by
  unfold resumeDecision
  split
  · exact decideReading_only _ _ _
  · exact decideForward_only _ _ _
  · exact decideLocal_only _ _ _

/-! ### Sets of offers (R8, R80, R81) -/

/-- Offers of a producer of STATE events change the intake and the lines alone. -/
def OnlyOfferFields (s t : State) : Prop := t = { s with intake := t.intake, inputs := t.inputs }

theorem OnlyOfferFields.trans {s t u : State} (h : OnlyOfferFields s t) (k : OnlyOfferFields t u) :
    OnlyOfferFields s u := by
  unfold OnlyOfferFields at *
  rw [k, h]

theorem offerState_only (n : Fin 16) (s : State) : OnlyOfferFields s (offerState n s) := by
  unfold OnlyOfferFields offerState
  dsimp only
  split
  · rw [offerEvent_eq]; rfl
  · rfl
  · rfl

theorem OfferSet.offer_only (n : Fin 16) (rest : List (Fin 16)) (w : OfferSet) (s : State) :
    OnlyOfferFields s (w.offer n rest s).1 := by
  unfold OfferSet.offer
  split
  · exact offerState_only n s
  · rfl
  · rfl

/-- R80: an offer leaves the set with the lines after it, and its tag and command. -/
theorem OfferSet.offer_rest (n : Fin 16) (rest : List (Fin 16)) (w : OfferSet) (s : State) :
    (w.offer n rest s).2.lines = rest ∧ (w.offer n rest s).2.tag = w.tag
      ∧ (w.offer n rest s).2.command = w.command := by
  unfold OfferSet.offer
  split <;> exact ⟨rfl, rfl, rfl⟩

/-- R80: offers of a set change the intake and the lines alone. -/
theorem OfferSet.advance_only (k : Nat) : ∀ (w : OfferSet) (s : State), OnlyOfferFields s (w.advance k s).1 := by
  induction k with
  | zero => intro w s; rfl
  | succ k ih =>
    intro w s
    simp only [OfferSet.advance]
    split
    · rfl
    · exact (OfferSet.offer_only _ _ w s).trans (ih _ _)

/-- R80: after `k` offers the set has the lines after them, and its tag and command. -/
theorem OfferSet.advance_rest (k : Nat) : ∀ (w : OfferSet) (s : State),
    (w.advance k s).2.lines = w.lines.drop k ∧ (w.advance k s).2.tag = w.tag
      ∧ (w.advance k s).2.command = w.command := by
  induction k with
  | zero => intro w s; exact ⟨rfl, rfl, rfl⟩
  | succ k ih =>
    intro w s
    simp only [OfferSet.advance]
    split
    · rename_i h; rw [h]; exact ⟨by simp, rfl, rfl⟩
    · rename_i n rest h
      obtain ⟨a, b, c⟩ := ih (w.offer n rest s).2 (w.offer n rest s).1
      obtain ⟨x, y, z⟩ := w.offer_rest n rest s
      exact ⟨by rw [a, x, h]; rfl, b.trans y, c.trans z⟩

/-! ### Sessions (R117, R118) -/

/-- A LINK notice handed over changes the link notices alone. -/
theorem postLinkNotice_eq (r : HostRecord) (s : State) :
    postLinkNotice r s = { s with linkNotices := (postLinkNotice r s).linkNotices } := by
  unfold postLinkNotice
  split <;> rfl

/-- Entry to FAILED changes the link, the raises, the link notices, the geometry and the deferred set alone. -/
theorem enterFailed_eq (r : Reason) (s : State) :
    enterFailed r s = { s with
      link := { s.link.leave with session := .failed, reason := r }
      raises := s.raises ++ [⟨.linkLost, r.word⟩]
      linkNotices := (enterFailed r s).linkNotices
      geom := (enterFailed r s).geom
      deferred := (enterFailed r s).deferred } := by
  simp only [enterFailed, finishLinkOpen]
  rw [finishDeferred_eq, postLinkNotice_eq]
  rfl

/-- Entry to CLOSED changes the link, the link notices, the geometry and the deferred set alone. -/
theorem enterClosed_eq (r : Reason) (sendClose : Bool) (s : State) :
    enterClosed r sendClose s = { s with
      link := (enterClosed r sendClose s).link
      linkNotices := (enterClosed r sendClose s).linkNotices
      geom := (enterClosed r sendClose s).geom
      deferred := (enterClosed r sendClose s).deferred } := by
  simp only [enterClosed, finishLinkOpen]
  rw [finishDeferred_eq, postLinkNotice_eq]
  rfl

end Sys2Proof.Machine
end

