-- ==== Sys2Proof/Laws/Commands.lean ====
section
/-! SUPPORT. How a host command runs, said once in the words of Sys2Proof/Safety.lean: what settling completes, and the
state after a command that ends with an immediate completion or joins the deferred set. -/

namespace Sys2Proof.Machine

/-! ### Records assigned in order (R149) -/

@[simp] theorem OutRing.assignAll_nil (r : OutRing) : r.assignAll [] = r := rfl

theorem OutRing.assignAll_append (xs ys : List HostRecord) (r : OutRing) :
    r.assignAll (xs ++ ys) = (r.assignAll xs).assignAll ys := by simp [OutRing.assignAll, List.foldl_append]

@[simp] theorem Geometry.complete_nil (g : Geometry) : g.complete [] = g := rfl

theorem Geometry.complete_append (xs ys : List HostRecord) (g : Geometry) :
    g.complete (xs ++ ys) = (g.complete xs).complete ys := by simp [Geometry.complete, OutRing.assignAll_append]

theorem Geometry.map_complete_complete (o : Option Geometry) (xs ys : List HostRecord) :
    (o.map (Geometry.complete xs)).map (Geometry.complete ys) = o.map (Geometry.complete (xs ++ ys)) := by
  cases o <;> simp [Geometry.complete_append]

/-- R149: a completion handed over is assigned behind those before it. -/
theorem handCompletion_complete (kind : Byte) (tag : Word) (st : Status) (w1 w2 w3 : Word) (s : State) :
    handCompletion kind tag st w1 w2 w3 s
      = { s with geom := s.geom.map (Geometry.complete [.completion kind tag st w1 w2 w3]) } := by
  unfold handCompletion
  split
  · rename_i h; cases s; simp_all
  · rename_i g h; simp [h, Geometry.complete, OutRing.assignAll]

/-- A command found in flight is of its kind. -/
theorem findDeferred_kind {k : DeferredKind} {s : State} {d : Deferred} (h : findDeferred k s = some d) :
    d.job.kind = k := by simpa using List.find?_some h

/-- R158: the deferred command of a kind that completes leaves the set, and its record is handed over. -/
theorem finishDeferred_some {k : DeferredKind} {s : State} {d : Deferred} (h : findDeferred k s = some d) (st : Status)
    (w1 w2 w3 : Word) :
    finishDeferred k st w1 w2 w3 s = { s with
      geom := s.geom.map (Geometry.complete [.completion k.commandCode d.tag st w1 w2 w3])
      deferred := leaveDeferred k s.deferred } := by
  unfold finishDeferred
  rw [h]
  simp only [handCompletion_complete]

/-! ### Settling (R174, R179) -/

theorem quiesceHolds_iff (s : State) : quiesceHolds s = true ↔
    s.intake = [] ∧ (s.deciding = none ∧ s.handover = none) ∧ s.hold = [] ∧ s.delivery = none := by
  simp [quiesceHolds, underDecision, and_assoc]

theorem map_complete_nil (o : Option Geometry) : o.map (Geometry.complete []) = o := by cases o <;> rfl

theorem settleQuiesce_due (u : State) : settleQuiesce u
    = { u with geom := u.geom.map (Geometry.complete (dueQuiesce u).1), deferred := (dueQuiesce u).2 } := by
  unfold settleQuiesce quiesceReady dueQuiesce
  rcases h : findDeferred .quiesce u with _ | ⟨tag, _ | ⟨deadline, elapsed⟩ | j | ⟨n, w⟩⟩
  · simp only [map_complete_nil]
  · simp only [map_complete_nil]
  · dsimp only
    by_cases hq : quiesceHolds u = true
    · rw [if_pos hq, if_pos ((quiesceHolds_iff u).1 hq)]
      exact finishDeferred_some h _ _ _ _
    · rw [if_neg hq, if_neg (fun c => hq ((quiesceHolds_iff u).2 c))]
      simp only [map_complete_nil]
  · simp only [map_complete_nil]
  · simp only [map_complete_nil]

theorem settleFence_due (u : State) : settleFence u = { u with
    geom := u.geom.map (Geometry.complete (dueFence u.deferred).1)
    deferred := (dueFence u.deferred).2 } := by
  unfold settleFence fenceReady dueFence
  rcases h : findDeferred .fence u with _ | ⟨tag, _ | ⟨deadline, elapsed⟩ | j | ⟨n, _ | ⟨a, b⟩⟩⟩ <;>
    (have h' := h; unfold findDeferred at h'; rw [h'])
  case some.fence.nil => exact finishDeferred_some h _ _ _ _
  all_goals simp only [map_complete_nil]

/-- Settling hands over what is due, in its order. -/
theorem settle_due (u : State) : settleFence (settleQuiesce u)
    = { u with geom := u.geom.map (Geometry.complete u.due.1), deferred := u.due.2 } := by
  rw [settleFence_due, settleQuiesce_due]
  simp only [State.due, Geometry.map_complete_complete]

theorem settle_eq_settled (u : State) : settle u = u.settled := by
  unfold settle State.settled
  by_cases hp : postsRecords u.part = true
  · rw [if_pos hp, settle_due, if_pos (by simpa [postsRecords] using hp)]
  · rw [if_neg hp, if_neg (by simpa [postsRecords] using hp)]

/-! ### A command taken, executed and completed (R147, R157 to R159) -/

/-- R147: a command has been taken from the geometry `g`, its own effect has left `u`, and the completions `before` have
been handed over; the next read is not issued yet. -/
def State.taken (g : Geometry) (before : List HostRecord) (u : State) : State :=
  let next := (g.cmd.consumer + 1) % g.cmd.size
  { u with
    cmdRead := false
    geom := some (({ g with cmd := { g.cmd with consumer := next } } : Geometry).complete before)
    ringCounters := { u.ringCounters with commandsTaken := bump u.ringCounters.commandsTaken }
    indexWrites := u.indexWrites ++ [⟨.command, next⟩] }

theorem takeCommand_ready {s : State} {g : Geometry} (r : Ready s g) : takeCommand s = s.taken g [] := by
  unfold takeCommand
  rw [r.geom]
  rfl

theorem taken_due (g : Geometry) (before : List HostRecord) (u : State) : (u.taken g before).due = u.due := rfl

theorem commandFetch_taken {u : State} (hp : u.part = .running) (he : u.executing = none) (g : Geometry)
    (records : List HostRecord) :
    commandFetch (u.taken g records) = u.afterTake g records := by
  unfold commandFetch mayFetch State.taken State.afterTake reservationAllows
  simp only [hp, he, Geometry.complete]
  by_cases h : u.deferred.length < (g.compl.assignAll records).free
  · by_cases h2 : (g.cmd.consumer + 1) % g.cmd.size = g.cmd.producer
    · simp [h, h2]
    · simp [h, h2]
  · simp [h]

theorem handCompletion_taken (kind : Byte) (tag : Word) (st : Status) (w1 w2 w3 : Word) (g : Geometry)
    (before : List HostRecord) (u : State) :
    handCompletion kind tag st w1 w2 w3 (u.taken g before)
      = u.taken g (before ++ [.completion kind tag st w1 w2 w3]) := by
  rw [handCompletion_complete]
  simp only [State.taken, Option.map_some, Geometry.complete_append]

theorem settled_taken {u : State} (hp : u.part = .running) (g : Geometry) (before : List HostRecord) :
    (u.taken g before).settled = State.taken g (before ++ u.due.1) { u with deferred := u.due.2 } := by
  unfold State.settled
  rw [if_pos (show (u.taken g before).part = .running ∨ (u.taken g before).part = .stopping from Or.inl hp), taken_due]
  simp only [State.taken, Option.map_some, Geometry.complete_append]

theorem needsSettle_iff {u : State} (hp : u.part = .running) : needsSettle u = true ↔ u.due.1 ≠ [] := by
  unfold needsSettle State.due dueQuiesce dueFence quiesceReady fenceReady
  have hpost : postsRecords u.part = true := by rw [hp]; rfl
  rw [hpost, Bool.true_and]
  rcases h : findDeferred .quiesce u with _ | ⟨tag, _ | ⟨deadline, elapsed⟩ | j | ⟨n, w⟩⟩ <;> dsimp only
  case some.quiesce =>
    by_cases hq : quiesceHolds u = true
    · rw [if_pos hq, if_pos ((quiesceHolds_iff u).1 hq)]
      simp
    · rw [if_neg hq, if_neg (fun c => hq ((quiesceHolds_iff u).2 c))]
      rcases h2 : findDeferred .fence u with _ | ⟨tag2, _ | _ | _ | ⟨n, _ | _⟩⟩ <;>
        (unfold findDeferred at h2; rw [h2]; simp)
  all_goals
    rcases h2 : findDeferred .fence u with _ | ⟨tag2, _ | _ | _ | ⟨n, _ | _⟩⟩ <;>
      (unfold findDeferred at h2; rw [h2]; simp)

/-- R157, R159: a command whose execution ends with an immediate answer, its own effect leaving `u` and the completions
`before` handed over by it. -/
theorem runCommand_commandDone {s u : State} {g : Geometry} (r : Ready s g) {kind : Byte} {tag : Word} {x : Execution}
    {before : List HostRecord} {st : Status} {w1 w2 w3 : Word} (hp : u.part = .running) (he : u.executing = none)
    (hx : x .nothing (s.taken g []) = (u.taken g before, .done st w1 w2 w3)) :
    runCommand .nothing kind tag x s = u.commandDone g before (.completion kind tag st w1 w2 w3) := by
  rw [runCommand_done r.running r.reading (by rw [takeCommand_ready r]; exact hx)]
  have hfin : finishImmediate kind tag st w1 w2 w3 (u.taken g before)
      = if u.due.1 = [] then u.taken g (before ++ [.completion kind tag st w1 w2 w3])
        else State.taken g (before ++ if Config.deferredFirst u.choices
            then u.due.1 ++ [.completion kind tag st w1 w2 w3] else .completion kind tag st w1 w2 w3 :: u.due.1)
          { u with deferred := u.due.2, choices := u.choices + 1 } := by
    unfold finishImmediate
    by_cases hd : u.due.1 = []
    · rw [if_pos hd, if_neg (by
        rw [needsSettle_iff (u := u.taken g before) hp, taken_due]; simp [hd]), handCompletion_taken]
    · rw [if_neg hd, if_pos ((needsSettle_iff (u := u.taken g before) hp).2 (by rw [taken_due]; exact hd))]
      have key : ∀ b, ({ u.taken g b with choices := (u.taken g b).choices + 1 } : State)
          = State.taken g b { u with choices := u.choices + 1 } := fun _ => rfl
      have hdue : ({ u with choices := u.choices + 1 } : State).due = u.due := rfl
      simp only [key, handCompletion_taken, settle_eq_settled]
      rw [settled_taken (u := { u with choices := u.choices + 1 }) hp,
        settled_taken (u := { u with choices := u.choices + 1 }) hp, handCompletion_taken, hdue]
      have hc : (u.taken g before).choices = u.choices := rfl
      rw [hc]
      split <;> simp [List.append_assoc]
  rw [hfin]
  unfold State.commandDone
  split
  · rw [abortLeftovers_running (s := u.taken g _) hp, commandFetch_taken hp he]
  · rw [abortLeftovers_running (by exact hp), commandFetch_taken (by exact hp) (by exact he)]

/-- R158: a command whose execution starts a deferred command, its effect leaving `u`. -/
theorem runCommand_commandJoined {s u : State} {g : Geometry} (r : Ready s g) {kind : Byte} {tag : Word} {x : Execution}
    (hp : u.part = .running) (he : u.executing = none) (hx : x .nothing (s.taken g []) = (u.taken g [], .joined)) :
    runCommand .nothing kind tag x s = u.commandJoined g := by
  simp only [runCommand]
  rw [if_pos ⟨r.running, r.reading⟩, takeCommand_ready r, hx]
  simp only [answerCommand]
  rw [settle_eq_settled, settled_taken hp, abortLeftovers_running (by exact hp),
    commandFetch_taken (by exact hp) (by exact he)]
  rfl

end Sys2Proof.Machine
end

