-- ==== Sys2Proof/Laws/Link.lean ====
section
/-! SUPPORT. What a transition of the session does (R114 to R118), in the words of Sys2Proof/Safety.lean, and that settling
once is enough. -/

namespace Sys2Proof.Machine

/-! ### Transitions -/

theorem Link.leave_ended (l : Link) (ses : Session) (rs : Reason) :
    ({ l.leave with session := ses, reason := rs } : Link) = l.ended ses rs false := by
  unfold Link.leave Link.ended Session.inCall
  rcases h : l.session <;> simp [Link.exit, Link.queueDepth]

@[simp] theorem Link.ended_session (l : Link) (ses : Session) (rs : Reason) (b : Bool) :
    (l.ended ses rs b).session = ses := by unfold Link.ended; split <;> rfl

@[simp] theorem Link.ended_reason (l : Link) (ses : Session) (rs : Reason) (b : Bool) :
    (l.ended ses rs b).reason = rs := by unfold Link.ended; split <;> rfl

theorem finishLinkOpen_eq (st : Status) (s : State) : finishLinkOpen st s = { s with
    geom := s.geom.map (Geometry.complete (linkOpenRecord st s.link s))
    deferred := if inFlight .linkOpen s then leaveDeferred .linkOpen s.deferred else s.deferred } := by
  unfold finishLinkOpen linkOpenRecord inFlight
  rcases h : findDeferred .linkOpen s with _ | d
  · rw [finishDeferred_none (by simp [inFlight, h])]
    simp [map_complete_nil]
  · rw [finishDeferred_some h]
    simp [Reason.word, sessionPair, DeferredKind.commandCode]

theorem postLinkNotice_when (r : HostRecord) (s : State) : postLinkNotice r s
    = { s with linkNotices := if (noticeRing s).isSome then s.linkNotices ++ [r] else s.linkNotices } := by
  unfold postLinkNotice; split <;> rfl

theorem enterFailed_sessionFailed (rs : Reason) (s : State) : enterFailed rs s = s.sessionFailed rs := by
  simp only [enterFailed, State.sessionFailed, onLink, Link.leave_ended, finishLinkOpen_eq, postLinkNotice_when, raiseFault,
    State.transition, linkNotice]
  rw [show rs.failStatus = if rs = .timeout then Status.timeout else .alignFailed by cases rs <;> rfl]
  simp only [Reason.word]
  rfl

theorem Link.close_ended (l : Link) (ses : Session) (rs : Reason) (b : Bool) :
    (let l1 : Link := { l.leave with session := ses, reason := rs }
     if b then { l1 with closeWait := some l1.own } else l1) = l.ended ses rs b := by
  cases b
  · rw [← Link.leave_ended]; rfl
  · calc
      _ = ({ l.ended ses rs false with closeWait := some (l.ended ses rs false).own } : Link) := by
        rw [← Link.leave_ended]; rfl
      _ = _ := by unfold Link.ended; split <;> rfl

theorem enterClosed_transition (rs : Reason) (b : Bool) (s : State) :
    enterClosed rs b s = s.transition .aborted (s.link.ended .closed rs b) := by
  have hl := s.link.close_ended .closed rs b
  simp only [enterClosed, onLink, finishLinkOpen_eq, postLinkNotice_when, State.transition, linkNotice]
  simp only at hl
  rw [hl]
  rfl

/-! ### Settling twice -/

theorem Deferred.strike_kind (k : DeferredKind) (d : Deferred) : (Deferred.strike k d).job.kind = d.job.kind := by
  rcases d with ⟨tag, _ | _ | _ | _⟩ <;> rfl

theorem find_leaveDeferred_self (k : DeferredKind) (ds : List Deferred) :
    (leaveDeferred k ds).find? (fun d => d.job.kind == k) = none := by
  simp only [leaveDeferred, List.find?_eq_none, List.mem_map, List.mem_filter]
  rintro _ ⟨d, ⟨_, hd⟩, rfl⟩
  simpa [Deferred.strike_kind] using hd

theorem find_leaveDeferred_of_none {k j : DeferredKind} {ds : List Deferred}
    (h : ds.find? (fun d => d.job.kind == k) = none) : (leaveDeferred j ds).find? (fun d => d.job.kind == k) = none := by
  simp only [leaveDeferred, List.find?_eq_none, List.mem_map, List.mem_filter] at h ⊢
  rintro _ ⟨d, ⟨hd, _⟩, rfl⟩
  simpa [Deferred.strike_kind] using h d hd

theorem dueQuiesce_of_none {u : State} (h : findDeferred .quiesce u = none) : dueQuiesce u = ([], u.deferred) := by
  unfold dueQuiesce; rw [h]

theorem dueFence_twice (ds : List Deferred) : dueFence (dueFence ds).2 = ([], (dueFence ds).2) := by
  have hn : ∀ xs : List Deferred, xs.find? (fun d => d.job.kind == .fence) = none → dueFence xs = ([], xs) := by
    intro xs h; unfold dueFence; rw [h]
  rcases h : ds.find? (fun d => d.job.kind == .fence) with _ | ⟨tag, _ | _ | _ | ⟨n, _ | ⟨a, b⟩⟩⟩
  case some.fence.nil =>
    have : dueFence ds = ([.completion 0x13 tag .ok (BitVec.ofNat 32 n) 0 0], leaveDeferred .fence ds) := by
      unfold dueFence; rw [h]
    rw [this]
    exact hn _ (find_leaveDeferred_self _ _)
  all_goals
    have : dueFence ds = ([], ds) := by unfold dueFence; rw [h]
    rw [this]
    exact this

theorem find_dueFence_of_none {k : DeferredKind} {ds : List Deferred} (h : ds.find? (fun d => d.job.kind == k) = none) :
    (dueFence ds).2.find? (fun d => d.job.kind == k) = none := by
  unfold dueFence
  split
  · exact find_leaveDeferred_of_none h
  · exact h

/-- Nothing is due once what was due has been handed over. -/
theorem due_twice (u v : State) (hd : v.deferred = u.due.2) (hi : v.intake = u.intake) (hh : v.handover = u.handover)
    (hd2 : v.deciding = u.deciding) (hq : v.hold = u.hold) (hv : v.delivery = u.delivery) : v.due = ([], v.deferred) := by
  have key : dueQuiesce v = ([], v.deferred) := by
    unfold dueQuiesce
    rw [hi, hh, hd2, hq, hv]
    by_cases c : u.intake = [] ∧ (u.deciding = none ∧ u.handover = none) ∧ u.hold = [] ∧ u.delivery = none
    · have : findDeferred .quiesce v = none := by
        unfold findDeferred
        rw [hd]
        refine find_dueFence_of_none ?_
        unfold dueQuiesce
        rcases h : findDeferred .quiesce u with _ | ⟨tag, _ | ⟨a, b⟩ | _ | ⟨_, _⟩⟩
        · exact h
        case some.quiesce =>
          dsimp only
          rw [if_pos c]
          exact find_leaveDeferred_self _ _
        all_goals (have := findDeferred_kind h; cases this)
      rw [this]
    · simp only [if_neg c]
      split <;> rfl
  unfold State.due
  rw [key]
  dsimp only
  rw [hd]
  have := dueFence_twice (dueQuiesce u).2
  unfold State.due
  dsimp only
  rw [this]
  rfl

/-- R174, R179: what is due is handed over once. -/
theorem settled_settled (u : State) : u.settled.settled = u.settled := by
  by_cases hp : u.part = .running ∨ u.part = .stopping
  · have hs : u.settled = { u with geom := u.geom.map (Geometry.complete u.due.1), deferred := u.due.2 } := by
      unfold State.settled; rw [if_pos hp]
    have hdue : u.settled.due = ([], u.settled.deferred) := by
      rw [hs]; exact due_twice u _ rfl rfl rfl rfl rfl rfl
    generalize u.settled = v at hdue hs
    have hv : v.part = u.part := by rw [hs]
    unfold State.settled
    rw [hdue, if_pos (by rw [hv]; exact hp)]
    simp only [map_complete_nil]
  · have hs : u.settled = u := by unfold State.settled; rw [if_neg hp]
    rw [hs, hs]

end Sys2Proof.Machine
end

