-- ==== Sys2Proof/Laws/Operands.lean ====
section
/-! SUPPORT. The range check of each command is the one Sys2Proof/Safety.lean words (FieldsInRange), and what a field in
range stands for. -/

namespace Sys2Proof.Machine

theorem toNat_le_one_iff {n : Nat} (hn : 1 ≤ n) (b : BitVec n) : b.toNat ≤ 1 ↔ b = 0 ∨ b = 1 := by
  constructor
  · intro h
    rcases (by omega : b.toNat = 0 ∨ b.toNat = 1) with h | h
    · left; apply BitVec.eq_of_toNat_eq; simpa using h
    · right
      apply BitVec.eq_of_toNat_eq
      rw [h]
      simp only [BitVec.ofNat_eq_ofNat, BitVec.toNat_ofNat]
      exact (Nat.mod_eq_of_lt (Nat.one_lt_two_pow (by omega))).symm
  · rintro (rfl | rfl)
    · simp
    · simp only [BitVec.ofNat_eq_ofNat, BitVec.toNat_ofNat]; exact Nat.mod_le _ _

/-- R197: a flag in range is 0 or 1. -/
theorem isFlag_iff (b : Byte) : isFlag b = true ↔ b.toNat ≤ 1 := by
  rw [toNat_le_one_iff (by decide)]; simp [isFlag]

theorem byte_eq_iff (b : Byte) {k : Nat} (hk : k < 256) : b = BitVec.ofNat 8 k ↔ b.toNat = k := by
  constructor
  · rintro rfl; simp; omega
  · intro h; apply BitVec.eq_of_toNat_eq; simp; omega

/-- R31: a ring set names present rings alone. -/
theorem absentRings_iff (s : State) (rings : Byte) (h : rings.toNat < 16) :
    (rings.setWidth 4 &&& ~~~presentRings s = 0)
      ↔ ∀ ring : Fin 4, rings.getLsbD ring.val = true → ringPresent s ring = true := by
  have hr : rings = BitVec.ofNat 8 rings.toNat := by simp
  generalize rings.toNat = n at *
  subst hr
  unfold presentRings
  generalize h0 : ringPresent s 0 = a0
  generalize h1 : ringPresent s 1 = a1
  generalize h2 : ringPresent s 2 = a2
  generalize h3 : ringPresent s 3 = a3
  have this : (∀ ring : Fin 4, (BitVec.ofNat 8 n).getLsbD ring.val = true → ringPresent s ring = true) ↔
      ((BitVec.ofNat 8 n).getLsbD 0 = true → a0 = true) ∧ ((BitVec.ofNat 8 n).getLsbD 1 = true → a1 = true)
        ∧ ((BitVec.ofNat 8 n).getLsbD 2 = true → a2 = true) ∧ ((BitVec.ofNat 8 n).getLsbD 3 = true → a3 = true) := by
    rw [← h0, ← h1, ← h2, ← h3]
    constructor
    · intro H; exact ⟨H 0, H 1, H 2, H 3⟩
    · rintro ⟨A, B, C, D⟩ ring
      match ring with
      | 0 => exact A
      | 1 => exact B
      | 2 => exact C
      | 3 => exact D
  rw [this]
  clear this h0 h1 h2 h3
  interval_cases n <;> revert a0 a1 a2 a3 <;> decide

theorem routeSetInRange_iff (s : State) (f : RouteSetFields) :
    routeSetInRange s f = true ↔ FieldsInRange s (.routeSet f) := by
  simp only [routeSetInRange, FieldsInRange, sourceInRange, setInRange, Bool.and_eq_true, decide_eq_true_eq,
    isFlag_iff, Bool.or_eq_true, beq_iff_eq]
  constructor
  · rintro ⟨⟨⟨⟨⟨⟨⟨⟨⟨⟨a, b⟩, c⟩, d⟩, e⟩, f⟩, g⟩, h⟩, i⟩, j⟩, k⟩
    exact ⟨a, b, c, d, e, (absentRings_iff s _ e).1 f, g, h, i, by omega, by omega⟩
  · rintro ⟨a, b, c, d, e, f, g, h, i, j, k⟩
    exact ⟨⟨⟨⟨⟨⟨⟨⟨⟨⟨a, b⟩, c⟩, d⟩, e⟩, (absentRings_iff s _ e).2 f⟩, g⟩, h⟩, i⟩, by omega⟩, by omega⟩

theorem routeClearInRange_iff (s : State) (f : RouteClearFields) :
    routeClearInRange f = true ↔ FieldsInRange s (.routeClear f) := by
  simp [routeClearInRange, sourceInRange, isFlag_iff, FieldsInRange]

theorem sourceInRange_iff (source : Half) : sourceInRange source = true ↔ source.toNat ≤ 255 := by
  simp [sourceInRange]

theorem lineInInRange_iff (s : State) (f : LineInFields) :
    lineInInRange f = true ↔ FieldsInRange s (.lineInConfig f) := by
  simp only [lineInInRange, lineInRange, sourceInRange, Bool.and_eq_true, decide_eq_true_eq, isFlag_iff, FieldsInRange]
  omega

theorem lineOutInRange_iff (s : State) (f : LineOutFields) :
    lineOutInRange f = true ↔ FieldsInRange s (.lineOutConfig f) := by
  simp only [lineOutInRange, lineInRange, Bool.and_eq_true, decide_eq_true_eq, isFlag_iff, FieldsInRange]
  omega

theorem outputSetInRange_iff (s : State) (f : OutputSetFields) :
    outputSetInRange f = true ↔ FieldsInRange s (.outputSet f) := by
  simp only [outputSetInRange, lineInRange, Bool.and_eq_true, decide_eq_true_eq, isFlag_iff, FieldsInRange]
  constructor
  · rintro ⟨⟨h1, h2⟩, h3⟩
    refine ⟨by omega, ?_⟩
    rcases (toNat_le_one_iff (by decide) _).1 h2 with h | h
    · left; rw [if_pos h] at h3; exact ⟨h, (isFlag_iff _).1 h3⟩
    · right; rw [if_neg (by rw [h]; decide)] at h3; exact ⟨h, by simpa using h3⟩
  · rintro ⟨h1, ⟨h2, h3⟩ | ⟨h2, h3⟩⟩
    · exact ⟨⟨by omega, by rw [h2]; decide⟩, by rw [if_pos h2]; exact (isFlag_iff _).2 h3⟩
    · exact ⟨⟨by omega, by rw [h2]; decide⟩, by rw [if_neg (by rw [h2]; decide)]; simpa using h3⟩

theorem refreshInRange_iff (s : State) (lines : Word) :
    refreshInRange lines = true ↔ FieldsInRange s (.refresh lines) := by
  simp [refreshInRange, setInRange, FieldsInRange]

/-- R168: what a SCHEDULE in range schedules. -/
theorem scheduleKind_of_inRange {s : State} {f : ScheduleFields} (h : FieldsInRange s (.schedule f)) :
    scheduleKind f = some (if f.kind = 0 then .rise else if f.kind = 1 then .fall
      else if f.kind = 2 then .state (if f.param = 0 then .low else .high)
      else if f.kind = 3 then .pulse (f.param.setWidth 16) else .mark (f.param.setWidth 16)) := by
  obtain ⟨h1, hk, h2, h3, h4, h5⟩ := h
  have hp : ∀ p : Word, BitVec.ofNat 16 p.toNat = p.setWidth 16 := by
    intro p; apply BitVec.eq_of_toNat_eq; simp
  have hz : (f.param.toNat = 0) ↔ f.param = 0 := by
    constructor
    · intro h; apply BitVec.eq_of_toNat_eq; simpa using h
    · intro h; rw [h]; rfl
  unfold scheduleKind
  rw [if_pos (by simp only [sourceInRange, Bool.and_eq_true, decide_eq_true_eq]; exact ⟨h1, h5⟩)]
  unfold eventKindOf
  by_cases k0 : f.kind = 0
  · rw [if_pos k0, if_pos k0]
  by_cases k1 : f.kind = 1
  · rw [if_neg k0, if_neg k0, if_pos k1, if_pos k1]
  by_cases k2 : f.kind = 2
  · rw [if_neg k0, if_neg k0, if_neg k1, if_neg k1, if_pos k2, if_pos k2, if_pos (h2 k2)]
    simp only [levelOf, hz]
  by_cases k3 : f.kind = 3
  · rw [if_neg k0, if_neg k0, if_neg k1, if_neg k1, if_neg k2, if_neg k2, if_pos k3, if_pos k3, if_pos (h3 k3), hp]
  · have k4 : f.kind = 4 := by
      rcases (by omega : f.kind.toNat = 0 ∨ f.kind.toNat = 1 ∨ f.kind.toNat = 2 ∨ f.kind.toNat = 3 ∨ f.kind.toNat = 4)
        with h | h | h | h | h
      · exact absurd ((byte_eq_iff _ (k := 0) (by decide)).2 h) k0
      · exact absurd ((byte_eq_iff _ (k := 1) (by decide)).2 h) k1
      · exact absurd ((byte_eq_iff _ (k := 2) (by decide)).2 h) k2
      · exact absurd ((byte_eq_iff _ (k := 3) (by decide)).2 h) k3
      · exact (byte_eq_iff _ (k := 4) (by decide)).2 h
    rw [if_neg k0, if_neg k0, if_neg k1, if_neg k1, if_neg k2, if_neg k2, if_neg k3, if_neg k3, if_pos k4,
      if_pos (h4 k4), hp]

/-- R168: a SCHEDULE out of range schedules nothing. -/
theorem scheduleKind_eq_none {s : State} {f : ScheduleFields} (h : ¬ FieldsInRange s (.schedule f)) :
    scheduleKind f = none := by
  unfold scheduleKind
  by_cases h0 : f.source.toNat ≤ 255 ∧ f.stamp.toNat < 2 ^ 63
  · rw [if_pos (by simp only [sourceInRange, Bool.and_eq_true, decide_eq_true_eq]; exact h0)]
    unfold eventKindOf
    simp only [FieldsInRange] at h
    by_cases k0 : f.kind = 0
    · simp only [k0] at h
      exact absurd ⟨h0.1, by decide, by simp, by simp, by simp, h0.2⟩ h
    by_cases k1 : f.kind = 1
    · simp only [k1] at h
      exact absurd ⟨h0.1, by decide, by simp, by simp, by simp, h0.2⟩ h
    by_cases k2 : f.kind = 2
    · simp only [k2] at h
      rw [if_neg k0, if_neg k1, if_pos k2, if_neg]
      intro hp
      exact h ⟨h0.1, by decide, fun _ => hp, by simp, by simp, h0.2⟩
    by_cases k3 : f.kind = 3
    · simp only [k3] at h
      rw [if_neg k0, if_neg k1, if_neg k2, if_pos k3, if_neg]
      intro hp
      exact h ⟨h0.1, by decide, by simp, fun _ => hp, by simp, h0.2⟩
    by_cases k4 : f.kind = 4
    · simp only [k4] at h
      rw [if_neg k0, if_neg k1, if_neg k2, if_neg k3, if_pos k4, if_neg]
      intro hp
      exact h ⟨h0.1, by decide, by simp, by simp, fun _ => hp, h0.2⟩
    · rw [if_neg k0, if_neg k1, if_neg k2, if_neg k3, if_neg k4]
  · rw [if_neg]
    simp only [sourceInRange, Bool.and_eq_true, decide_eq_true_eq]
    exact h0

theorem timeSetInRange_iff (s : State) (t : Quad) : timeSetInRange t = true ↔ FieldsInRange s (.timeSet t) := by
  simp [timeSetInRange, FieldsInRange]

theorem linkOpenInRange_iff (s : State) (f : LinkOpenFields) :
    linkOpenInRange f = true ↔ FieldsInRange s (.linkOpen f) := by
  simp only [linkOpenInRange, Bool.and_eq_true, decide_eq_true_eq, FieldsInRange]
  omega

/-- R176: the size of the selected sections. -/
theorem sectionsSize_eq (b : Byte) : sectionsSize b
    = (if b.getLsbD 0 then 12304 else 0) + (if b.getLsbD 1 then 1040 else 0) + (if b.getLsbD 2 then 784 else 0)
      + (if b.getLsbD 3 then 144 else 0) + (if b.getLsbD 4 then 256 else 0) + (if b.getLsbD 5 then 272 else 0) := by
  unfold sectionsSize sectionsOf allSections
  simp only [List.filter_cons, List.filter_nil, Section6.code]
  generalize b.getLsbD 0 = a0
  generalize b.getLsbD 1 = a1
  generalize b.getLsbD 2 = a2
  generalize b.getLsbD 3 = a3
  generalize b.getLsbD 4 = a4
  generalize b.getLsbD 5 = a5
  revert a0 a1 a2 a3 a4 a5
  decide

theorem statsReadInRange_iff (s : State) (f : StatsReadFields) :
    statsReadInRange f = true ↔ FieldsInRange s (.statsRead f) := by
  have hz : f.sections ≠ 0 ↔ 1 ≤ f.sections.toNat := by
    constructor
    · intro h; by_contra hc; exact h (BitVec.eq_of_toNat_eq (by simp; omega))
    · intro h hc; rw [hc] at h; simp at h
  simp only [statsReadInRange, setInRange, Bool.and_eq_true, decide_eq_true_eq, isFlag_iff, sectionsSize_eq,
    bne_iff_ne, hz, FieldsInRange]
  constructor
  · rintro ⟨⟨⟨⟨⟨a, b⟩, c⟩, d⟩, e⟩, h⟩; exact ⟨b, a, c, d, e, h⟩
  · rintro ⟨b, a, c, d, e, h⟩; exact ⟨⟨⟨⟨⟨a, b⟩, c⟩, d⟩, e⟩, h⟩

theorem faultsInRange_iff (s : State) (f : FaultsFields) : faultsInRange f = true ↔ FieldsInRange s (.faults f) := by
  simp only [faultsInRange, setInRange, Bool.and_eq_true, decide_eq_true_eq, isFlag_iff, FieldsInRange]
  omega

end Sys2Proof.Machine
end

