-- ==== Sys2Proof/Tests/Slice0.lean ====
section
/-! SUPPORT. Tests by hand: what WellFormed refuses, a few worked examples of the spec, and for each statement of
Sys2Proof/Certificates/Slice0/Obligations.lean a state and operands that meet its hypotheses (`witness_<Statement>`). -/

namespace Sys2Proof.Machine.Tests

/-! ### Small states -/

/-- A setup block in range (R139): two event rings present. -/
def block : SetupBlock :=
  { version := 1, notice := 1, cmdBase := 0x10000, cmdSize := 16, complBase := 0x20000, complSize := 4096
    eventBase := #v[0x40000, 0x50000, 0, 0], eventSize := #v[16, 16, 0, 0], status := 0x70000 }

/-- The part in RUNNING with two commands in the command ring, the read of the first outstanding, and two event rings. -/
def geom : Geometry :=
  let g := geometryOf block
  { g with cmd := { g.cmd with producer := 2 } }

def run : State :=
  { State.reset with
    part := .running, geom := some geom, cmdRead := true, intakeOpen := true
    pending := [.timeRead 7] }

theorem ready : Ready run geom := ⟨rfl, rfl, rfl, rfl⟩

/-- The state after a step that answers next. -/
def after (i : Instr) (s : State) : State :=
  match exec i s with
  | .next t => t
  | .fault _ => s
  | .refused _ => s

def event (kind : EventKind) : Event :=
  { source := 255, kind := kind, capture := 100, origin := .host 7, flags := ⟨false, false, false⟩ }

def entry : RouteEntry :=
  { state := .active
    config := { outputs := 0x8001, rings := 1, forward := true, latency := 10, late := .discard, kinds := 31, width := 0 }
    counters := ⟨0, 0, 0, 0, 0, 0, 0, 0⟩ }

/-- `run` with a route entry for source ID 255. -/
def routed (e : RouteEntry) (s : State) : State := { s with routes := s.routes.set 255 e }

/-- A link in this session state, with its timers at `n` ticks. -/
def linkIn (session : Session) (n : Nat) : Link :=
  { Link.reset with
    session := session, own := 3, recorded := 9
    params := { openTimeout := 100000, ackTimeout := 100, retryLimit := 2, idleTimeout := 1000, alignInterval := 100000
                maxDelay := 50 }
    openTimer := some n, helloTimer := some n, keepTimer := some n, silenceTimer := some n, attemptTimer := some n
    ackTimer := some n, probeTimer := some n, staleTimer := some n }

def linked (l : Link) : State := { run with link := l }

def txEvent : TxEvent := { source := 1, kind := .rise, capture := 5, coalesced := false, refresh := false }

def windowFrame (seq : Byte) : WindowFrame :=
  { event := txEvent, seq := seq, retry := 0, isPending := true, sentBefore := false }

/-! ### What WellFormed refuses -/

theorem test_wf_known_kind_low : WellFormed (.unknownCommand 0 0x01) = false := by decide
theorem test_wf_known_kind_high : WellFormed (.unknownCommand 0 0x13) = false := by decide
theorem test_wf_stop_known_kind : WellFormed (.stop (some ⟨0, .unknown 0x13, 0⟩) []) = false := by decide
theorem test_wf_halt_known_kind : WellFormed (.busMasterError (some ⟨0, .unknown 0x01, 0⟩) []) = false := by decide
theorem test_wf_write_of_none : WellFormed (.registerWrite 0x0C 0 0) = false := by decide
theorem test_wf_write_of_five : WellFormed (.registerWrite 0x0C 5 0) = false := by decide
theorem test_wf_write_of_submit : WellFormed (.registerWrite 0x14 4 0) = false := by decide
theorem test_wf_hello_zero : WellFormed (.rxHello 0 1) = false := by decide
theorem test_wf_close_zero : WellFormed (.rxClose 0) = false := by decide
theorem test_wf_idle_zero : WellFormed (.rxIdle 0) = false := by decide
theorem test_wf_unknown_kind : WellFormed (.unknownCommand 0 0x14) = true := by decide

/-! ### Worked examples -/

/-- 6.9, row 1: a PULSE of 1,000 ticks delivered at 100,000 on a resting routed line ends at 101,000. -/
theorem test_pulse_end : (Machine.State.outputs (after (.applicationRequest 5) { run with
    localTime := 100000, outputs := run.outputs.set 5 { run.outputs[5] with mode := .routed }
    delivery := some { event := event (.pulse 1000), outputs := 32, rings := 0, release := 100000, late := false
                       time := 100000, shift := 0 } }))[5].pulse = some 101000 := by decide

/-- 5.9: with F = 200 a change at 3,000,000 is accepted at 3,000,200, and its RISE carries the time of the change. -/
theorem test_filter : (after (.filterAccept 6) { run with
    localTime := 3000200
    inputs := run.inputs.set 6 { run.inputs[6] with
      config := { mode := .both, filter := 200, spacing := 10000, source := 6, announce := false }
      raw := .high, candidate := some 3000000 } }).intake.map (fun e => (e.kind, e.capture)) = [(.rise, 3000000)] := by
  decide

/-- R105: session number 65,535 is followed by 1. -/
theorem test_session_wraps : nextSession 65535 = 1 := by decide

/-- R132: the path delay truncates toward zero. -/
theorem test_delay_truncates : echoDelay 0 10 11 0 = 0 ∧ echoDelay 0 0 3 0 = -1 := by decide

/-- 13.2: the record of a CANCEL of tag 5 with command tag 7. -/
theorem test_record_cancel : decodeCommandRecord ([0x09, 0, 0, 0, 7, 0, 0, 0, 5] ++ zeros 23) = .cancel 7 5 := by decide

/-- R45, 13.2: every record is 32 bytes long. -/
theorem test_record_length : (HostRecord.bytes (.completion 0x13 7 .ok 1 2 3)).length = 32 := by decide

/-- 13.4: an ACK of 5 on the lane, with its CRC, is an ACK of 5; with a bit changed it fails the CRC. -/
theorem test_frame_ack : decodeFrame (Frame.bytes (.ack 5)) = .rxAck 5
    ∧ decodeFrame (5 :: 4 :: (Frame.bytes (.ack 5)).drop 2) = .crcError := by decide +kernel

/-- R189: a counter at 4,294,967,295 stays there. -/
theorem test_counter_saturates : bump (BitVec.allOnes 32) = BitVec.allOnes 32 := by decide

/-- The check value of this CRC (polynomial 1021h, initial FFFFh) over the nine digits 1 to 9. -/
theorem test_crc : crc16 [0x31, 0x32, 0x33, 0x34, 0x35, 0x36, 0x37, 0x38, 0x39] = 0x29B1 := by decide +kernel

/-! ### Witnesses: the machine as a whole -/

theorem run_sound : run.Sound where
  capacity := ⟨by decide, by decide, by decide, by decide, by decide⟩
  ordered := ⟨by decide, by intro h hh; simp [run, State.reset] at hh, by decide⟩
  rings := by
    refine ⟨?_, ?_, ?_, by decide, ?_, ?_, ?_, ?_, ?_, ?_⟩
    · intro _ g hg
      have : g = geom := by simpa [run] using hg.symm
      subst this
      refine ⟨⟨by decide, by decide, ⟨by decide, by decide, by decide, by decide, trivial, by decide⟩, ?_⟩, ?_⟩
      swap
      · unfold Geometry.Reserved; decide
      intro ring
      match ring with
      | 0 => exact Or.inr ⟨by decide, by decide, by decide, by decide, trivial, by decide⟩
      | 1 => exact Or.inr ⟨by decide, by decide, by decide, by decide, trivial, by decide⟩
      | 2 => exact Or.inl (by decide)
      | 3 => exact Or.inl (by decide)
    · intro _ h; cases h
    · intro g h; cases h
    · intro _ h; simp [run, State.reset, deferredKinds] at h
    · intro h; exact absurd rfl h
    · intro _; exact ⟨rfl, rfl⟩
    · intro h; exact absurd rfl h
    · intro h; exact absurd rfl h
    · intro w h; cases h
  quiet := by
    refine ⟨fun h => absurd rfl h, fun h => absurd rfl h, fun h => absurd rfl h, ?_, fun h => absurd rfl h,
      fun h => absurd rfl h⟩
    intro n h
    exfalso
    revert n
    decide
  link := ⟨by unfold Link.sequenced; decide, by decide, by decide, by decide, by decide, by decide, by decide, by decide,
    by decide, by decide, by decide⟩
  memory := by decide
  settled := by unfold State.Settled; decide

theorem witness_StepRunsFrontCommand : State.reset.pending = [] := rfl

theorem witness_StepKeepsCapacitiesAndOrder :
    run.WithinCapacity ∧ run.HoldOrdered ∧ ∃ t, step run = .next t := ⟨run_sound.capacity, run_sound.ordered, _, rfl⟩

theorem witness_StepKeepsRingsAndReservation : run.Sound ∧ ∃ t, step run = .next t := ⟨run_sound, _, rfl⟩

theorem witness_StepKeepsQuietOutsideRunning : run.QuietOutsideRunning ∧ ∃ t, step run = .next t :=
  ⟨run_sound.quiet, _, rfl⟩

theorem witness_StepKeepsLinkContext : run.Sound ∧ ∃ t, step run = .next t := ⟨run_sound, _, rfl⟩

theorem witness_StepLeavesNothingDue : run.Sound ∧ ∃ t, step run = .next t := ⟨run_sound, _, rfl⟩

/-- `run` with the index write of a command taken outstanding, and its completion next in the queue. -/
def indexing : State :=
  { run with indexWrites := [⟨.command, 1⟩], pending := [.recordWriteDone (.index .command)] }

theorem witness_StepWritesOnlyOwnedHostMemory : Memory.wf indexing.hostMem ∧ ∃ t, step indexing = .next t
    ∧ Memory.read t.hostMem 0x70000 ≠ Memory.read indexing.hostMem 0x70000 := ⟨run_sound.memory, _, rfl, by decide⟩

theorem witness_LocalTimeChangesOnlyByTickSetReset : (∃ t, exec .tick run = .next t ∧ t.localTime ≠ run.localTime)
    ∧ (after (.timeSet 7 (BitVec.ofNat 64 (2 ^ 63 - 1))) run).localTime ≠ run.localTime
    ∧ (after .reset { run with localTime := 9 }).localTime ≠ 9 :=
  ⟨⟨_, rfl, by decide⟩, by decide, by decide⟩

theorem witness_SettingsChangeOnlyByTheirCommands : (∃ t, exec .tick run = .next t) ∧ ¬ Resets .tick
    ∧ ¬ Takes Command.setsRoutes .tick ∧ ¬ Takes Command.setsInputs .tick ∧ ¬ Takes Command.setsOutputs .tick := by
  have h : ∀ sort, ¬ Takes sort .tick := by
    rintro sort ⟨c, tag, -, ⟨pause, h⟩ | ⟨n, late, h | h⟩⟩
    · cases c <;> cases h
    · cases h
    · obtain ⟨_, h⟩ := h
      cases h
  refine ⟨⟨_, rfl⟩, ?_, h _, h _, h _⟩
  rintro (h | h | h | ⟨w, h, -⟩) <;> cases h

/-- `run` inside a REFRESH of lines 2 and 15 whose offers have not been made. -/
def offering : State :=
  { run with
    cmdRead := false
    inputs := (run.inputs.set 2 { run.inputs[2] with config := { run.inputs[2].config with mode := .both } }).set 15
      { run.inputs[15] with config := { run.inputs[15].config with mode := .both } }
    executing := some { tag := 7, command := .refresh 0x8004, lines := [2, 15], made := 0, refused := 0, closed := false } }

theorem witness_CommandTakenIsCompletedOrHeld : Ready run geom ∧ (deferredKinds run).Nodup
    ∧ WellFormed (takeOf 7 .timeRead) = true ∧ (∃ t, exec (takeUpTo none 7 .timeRead) run = .next t)
    ∧ (∃ t, exec (.stop (some ⟨7, .timeRead, 0⟩) [.announce]) run = .next t)
    ∧ offering.executing.isSome = true ∧ offering.cmdRead = false ∧ offering.geom = some geom
    ∧ (deferredKinds offering).Nodup ∧ ∃ t, exec (takeUpTo (some 1) 7 (.refresh 0x8004)) offering = .next t :=
  ⟨ready, by decide, by decide, ⟨_, rfl⟩, ⟨_, rfl⟩, rfl, rfl, rfl, by decide, _, rfl⟩

/-! ### Witnesses: part states -/

/-- STARTING, waiting for the setup block read. -/
def starting (step : StartStep) : State := { State.reset with part := .starting, starting := some step }

theorem witness_StartSequenceReachesRunning :
    (State.reset.part = .idle ∧ State.reset.resetHeld = false ∧ (State.reset.setupLo.toNat + 2 ^ 32 * 0) % 4096 = 0)
      ∧ (({ State.reset with setupLo := 0xFFF } : State).setupLo.toNat + 2 ^ 32 * 0) % 4096 ≠ 0
      ∧ run.part ≠ .idle ∧ (starting (.readingSetup 0)).part = .starting ∧ setupError block = .noError
      ∧ setupError { block with version := 2 } ≠ .noError ∧ (starting (.writingStatus geom)).part = .starting
      ∧ (starting (.writingStatus geom)).starting = some (.writingStatus geom) := by
  decide

theorem witness_SetupBlockChecks : setupError { block with complSize := 8192 } = .badSize
    ∧ setupError { block with complSize := 16 } = .noError ∧ setupError { block with cmdBase := 0x10020 } = .badAlign
    ∧ setupError { block with status := 0x101C0 } = .overlap ∧ setupError { block with status := 0x10200 } = .noError := by
  decide

/-- STOPPING with nothing left to finish. -/
def stopping : State := { State.reset with part := .stopping, geom := some geom }

theorem witness_StopEntersStoppingWhichEndsInIdle : run.part = .running ∧ { run with cmdRead := false }.cmdRead = false
    ∧ (∃ u, exec (.filterAccept 15) { run with intakeOpen := false } = .next u)
    ∧ (∃ u, exec (.rawChange 15 .high) { run with intakeOpen := false } = .next u)
    ∧ (∃ u, exec (.spacingEnd 15) { run with intakeOpen := false } = .next u)
    ∧ (∃ u, exec (.rxEcho 0 0 0 0 (.announce (some 1))) { run with intakeOpen := false } = .next u)
    ∧ (∃ u, exec (.rxEvent ⟨0, 1, 0, 0, 0, 0⟩) { run with intakeOpen := false } = .next u) :=
  ⟨rfl, rfl, ⟨_, rfl⟩, ⟨_, rfl⟩, ⟨_, rfl⟩, ⟨_, rfl⟩, ⟨_, rfl⟩⟩

theorem witness_StopEntersStoppingWhichEndsInIdle_ends : run.part = .running ∧ State.reset.part ≠ .running
    ∧ (stopping.part = .stopping ∧ stopping.executing = none ∧ stopping.deferred = []
      ∧ stopping.delivery = none ∧ stopping.bufWrites = []
      ∧ stopping.faultNotices = [] ∧ stopping.linkNotices = []) ∧ geom.compl.writes = []
    ∧ (∀ ring : Fin 4, geom.event[ring].writes = []) ∧ run.part ≠ .stopping ∧ stopping.indexWrites = []
    ∧ ({ stopping with indexWrites := [⟨.command, 1⟩] } : State).indexWrites ≠ [] ∧ stopping.geom ≠ none
    ∧ (∀ w ∈ [(⟨.command, 1⟩ : IndexWrite)], w.field = .command)
    ∧ ∃ u, exec (.recordWriteDone (.index .command)) { stopping with indexWrites := [⟨.command, 1⟩] } = .next u :=
  ⟨by decide, by decide, by decide, by decide, by decide, by decide, by decide, by decide, by decide, by decide, _, rfl⟩

/-- SCHEDULE of a PULSE at the top of its ranges. -/
def pulse : ScheduleFields :=
  { source := 255, kind := 3, param := 65535, stamp := BitVec.ofNat 64 (2 ^ 63 - 1), eventTag := 9 }

theorem witness_StopInsideExecution : Ready run geom ∧ scheduleKind pulse = some (.pulse 65535)
    ∧ run.intakeOpen = true ∧ run.intake.length < 64
    ∧ Ready { run with intake := List.replicate 64 (event .rise) } geom
    ∧ 64 ≤ (List.replicate 64 (event .rise)).length ∧ Ready { run with intakeOpen := false } geom
    ∧ FieldsInRange run (.routeSet ⟨255, 2, 1, 0xFFFF, 3, 31, 1, 1, 0xFFFFFF, 0xFFFF⟩)
    ∧ FieldsInRange run (.refresh 0xFFFF) ∧ FieldsInRange run (.outputSet ⟨15, 1, 0, 65535⟩)
    ∧ FieldsInRange run (.linkOpen ⟨65535, 1000, 7, 10, 1000, 1⟩) ∧ run.link.session = .closed
    ∧ (linkIn .failed 0).session = .failed := by
  refine ⟨ready, by decide, by decide, by decide, ⟨rfl, rfl, rfl, rfl⟩, by decide, ⟨rfl, rfl, rfl, rfl⟩, ?_, ?_, ?_, ?_,
    by decide, by decide⟩ <;> (unfold FieldsInRange; decide)

theorem witness_BusErrorHaltsThePart : (starting (.readingSetup 0)).part = .starting ∧ run.part = .running
    ∧ stopping.part = .stopping ∧ State.reset.part = .idle ∧ stopping.part ≠ .running ∧ Ready run geom
    ∧ scheduleKind pulse = some (.pulse 65535) ∧ run.intakeOpen = true ∧ run.intake.length < 64
    ∧ FieldsInRange run (.refresh 0xFFFF) ∧ (∃ t, exec (takeUpTo (some 1) 7 (.refresh 0xFFFF)) run = .next t)
    ∧ (∃ u, exec (.filterAccept 15) { run with intakeOpen := false } = .next u)
    ∧ (∃ u, exec (.rxEvent ⟨0, 1, 0, 0, 0, 0⟩) { run with intakeOpen := false } = .next u)
    ∧ (∃ w ∈ indexing.indexWrites, w.field = .command) ∧ Ready indexing geom
    ∧ (∃ u, exec (.recordWriteDone (.index .command)) indexing = .next u) ∧ (∀ w ∈ run.indexWrites, w.field ≠ .command)
    ∧ ∃ t, exec (.busMasterError (some ⟨7, .cancel 5, 1⟩)) run = .next t := by
  refine ⟨by decide, by decide, by decide, by decide, by decide, ready, by decide, by decide, by decide, ?_, ⟨_, rfl⟩,
    ⟨_, rfl⟩, ⟨_, rfl⟩, by decide, ⟨rfl, rfl, rfl, rfl⟩, ⟨_, rfl⟩, by decide, _, rfl⟩
  unfold FieldsInRange; decide

/-! ### Witnesses: the register window -/

theorem witness_SubmitSetsProducerIndex : run.geom = some geom ∧ run.part = .running ∧ (15 : Word).toNat < geom.cmd.size
    ∧ geom.cmd.size ≤ (16 : Word).toNat ∧ State.reset.part ≠ .running := by decide

/-- The geometry with one completion and one record of event ring 1 written and not released. -/
def filled : Geometry :=
  { geom with
    compl := { geom.compl with producer := 1, fill := 1 }
    event := geom.event.set 1 { geom.event[1] with producer := 1, fill := 1 } }

theorem witness_ReleaseFreesSlotsOrFaults :
    (0x00001 : Nat) / 2 ^ 16 % 8 = 0 ∧ (1 + filled.compl.size - 0) % filled.compl.size ≤ 1
      ∧ ¬ (2 + filled.compl.size - 0) % filled.compl.size ≤ 1 ∧ (0x20001 : Nat) / 2 ^ 16 % 8 = (1 : Fin 4).val + 1
      ∧ 1 < filled.event[1].size ∧ filled.event[3].size = 0 ∧ 5 ≤ (0x50000 : Nat) / 2 ^ 16 % 8
      ∧ run.part = .running ∧ State.reset.part ≠ .running := by decide

theorem witness_InterruptRegistersAndCauses : run.resetHeld = false
    ∧ (after .resetNAssert run).resetHeld = true := by decide

theorem witness_RegisterWindowWritesAndReads : (3 : Nat) ≠ 4 ∧ (after .resetNAssert run).resetHeld = true
    ∧ (0x24 : Nat) ∉ [0x04, 0x0C, 0x10, 0x14, 0x18, 0x1C, 0x20] ∧ run.resetHeld = false ∧ State.reset.geom = none := by
  decide

/-! ### Witnesses: host commands -/

theorem witness_CommandsNotTakenOrRejected : State.reset.part ≠ .running ∧ State.reset.cmdRead = false
    ∧ State.reset.executing = none ∧ offering.cmdRead = false ∧ (8 : Word) ≠ 7
    ∧ Ready run geom ∧ (0x14 : Byte).toNat = 20 ∧ (0 : Byte).toNat = 0 ∧ ¬ FieldsInRange run (.routeSuspend 256) :=
  ⟨by decide, by decide, by decide, by decide, by decide, ready, by decide, by decide, by simp [FieldsInRange]⟩

def routeSet (refresh : Byte) : RouteSetFields :=
  { source := 255, state := 2, forward := 1, outputs := 0xFFFF, rings := 3, kinds := 31, late := 1, refresh := refresh
    latency := 0xFFFFFF, width := 0xFFFF }

theorem witness_RouteSetAndClearWriteEntry : Ready run geom ∧ FieldsInRange run (.routeSet (routeSet 0))
    ∧ (routeSet 0).refresh = 0 ∧ FieldsInRange run (.routeClear ⟨255, 0⟩) ∧ FieldsInRange run (.routeClear ⟨255, 1⟩) := by
  refine ⟨ready, ?_, rfl, ?_, ?_⟩ <;> (unfold FieldsInRange; decide)

theorem witness_OffersOfOneSetMayBeParted : Ready run geom ∧ FieldsInRange run (.refresh 0xFFFF)
    ∧ FieldsInRange run (.routeSet (routeSet 1)) ∧ (routeSet 1).refresh = 1 ∧ offering.executing.isSome = true
    ∧ offering.geom = some geom ∧ offering.part = .running
    ∧ (after (.stop none []) offering).part = .stopping ∧ (after (.stop none []) offering).executing.isSome = true
    ∧ (after (.busMasterError none []) offering).part = .halted
    ∧ ({ offering with announcing := [15] } : State).announcing = 15 :: [] ∧ offering.inputs[15].config.mode ≠ .off
    ∧ run.inputs[15].config.mode = .off ∧ State.reset.part ≠ .running := by
  refine ⟨ready, ?_, ?_, rfl, by decide, by decide, by decide, by decide, by decide, by decide, by decide, by decide,
    by decide, by decide⟩ <;> (unfold FieldsInRange; decide)

/-- R8: between the two offers of a REFRESH another line's edge enters the intake. -/
theorem test_refresh_parted : (after (.refresh 7 0x8004 none) (after (.rawChange 15 .high)
    (after (.refresh 7 0x8004 (some 1)) offering))).intake.map (fun e => (e.origin, e.kind))
      = [(.line 2, .state .low), (.line 15, .rise), (.line 15, .state .high)] := by decide

/-- R80, R167: a STOP between the offers: the REFRESH completes CLOSED with 1 made and 1 refused. -/
theorem test_refresh_stopped : (after (.refresh 7 0x8004 none) (after (.stop none [])
    (after (.refresh 7 0x8004 (some 1)) offering))).geom.map (fun g => g.compl.writes.map RingWrite.record)
      = some [.completion 0x0A 7 .closed 1 1 0] := by decide

theorem witness_RefreshesStateLines : Ready run geom ∧ FieldsInRange run (.routeSet (routeSet 1))
    ∧ (routeSet 1).refresh = 1 ∧ FieldsInRange run (.refresh 0xFFFF) := by
  refine ⟨ready, ?_, rfl, ?_⟩ <;> (unfold FieldsInRange; decide)

theorem witness_SuspendAndResumeRoute : Ready run geom ∧ 255 < (256 : Half).toNat ∧ run.routes[255].state = .unused
    ∧ (255 : Half).toNat ≤ 255 ∧ (routed entry run).routes[255].state ≠ .unused ∧ Ready (routed entry run) geom :=
  ⟨ready, by decide, by decide, by decide, by decide, ⟨rfl, rfl, rfl, rfl⟩⟩

theorem witness_LineConfigsReplaceSettings : Ready run geom
    ∧ FieldsInRange run (.lineInConfig ⟨15, 3, 1, 4095, 255, 1048575⟩)
    ∧ FieldsInRange run (.lineOutConfig ⟨15, 2, 1, 1, 1⟩) := by
  refine ⟨ready, ?_, ?_⟩ <;> (unfold FieldsInRange; decide)

/-- `run` with output line 15 in mode HOST. -/
def hosted (pulse : Option Int) : State :=
  { run with outputs := run.outputs.set 15 { run.outputs[15] with mode := .host, pulse := pulse } }

theorem witness_OutputSetActsOnHostLine : Ready (hosted none) geom ∧ Ready (hosted (some 5)) geom
    ∧ FieldsInRange run (.outputSet ⟨15, 0, 1, 0⟩) ∧ FieldsInRange run (.outputSet ⟨15, 1, 0, 65535⟩)
    ∧ (hosted none).outputs[15].mode = .host ∧ (hosted (some 5)).outputs[15].pulse ≠ none
    ∧ (hosted none).outputs[15].pulse = none ∧ (hosted none).outputs[15].resting = .low
    ∧ run.outputs[15].mode ≠ .host := by
  refine ⟨⟨rfl, rfl, rfl, rfl⟩, ⟨rfl, rfl, rfl, rfl⟩, ?_, ?_, by decide⟩ <;> (unfold FieldsInRange; decide)

/-- An intake with 64 events. -/
def full : State := { run with intake := List.replicate 64 (event .rise) }

theorem witness_ScheduleOffersHostEvent : Ready run geom ∧ FieldsInRange run (.schedule pulse) ∧ run.Sound
    ∧ run.intakeOpen = true ∧ run.intake.length < 64 ∧ Ready full geom ∧ 64 ≤ full.intake.length
    ∧ State.reset.intakeOpen = false := by
  refine ⟨ready, ?_, run_sound, by decide, by decide, ⟨rfl, rfl, rfl, rfl⟩, by decide, by decide⟩
  unfold FieldsInRange; decide

theorem witness_CancelRemovesTaggedEntries : Ready run geom := ready

theorem witness_TickTimeReadAndTimeSet_commands : Ready run geom
    ∧ FieldsInRange run (.timeSet (BitVec.ofNat 64 (2 ^ 63 - 1))) ∧ run.hold = []
    ∧ ({ run with hold := [⟨200, event .rise, 1, 0⟩] } : State).hold ≠ [] := by
  refine ⟨ready, ?_, rfl, by decide⟩
  unfold FieldsInRange; decide

theorem witness_LinkOpenCallsOrIsRefused : Ready run geom
    ∧ FieldsInRange run (.linkOpen ⟨65535, 1000, 7, 10, 1000, 1⟩) ∧ run.link.session = .closed
    ∧ (linkIn .failed 0).session = .failed ∧ (linkIn .calling 0).session = .calling
    ∧ (linkIn .aligning 0).session = .aligning ∧ (linkIn .up 0).session = .up := by
  refine ⟨ready, ?_, by decide⟩
  unfold FieldsInRange; decide

theorem witness_LinkCloseEndsSession : Ready run geom ∧ run.link.session = .closed ∧ Ready (linked (linkIn .up 0)) geom
    ∧ (linked (linkIn .up 0)).link.session ≠ .closed := ⟨ready, by decide, ⟨rfl, rfl, rfl, rfl⟩, by decide⟩

/-- `run` with a deferred command in flight. -/
def with1 (job : Job) : State := { run with deferred := [⟨9, job⟩] }

def statsJob1 (todo : List StatsItem) : StatsJob :=
  { clear := true, address := 4096, todo := todo, record := [], written := 0, started := 0 }

theorem witness_DeferredCommandsStartAndComplete : Ready run geom ∧ FieldsInRange run (.quiesce 1)
    ∧ FieldsInRange run (.statsRead ⟨64, 14800, 63, 1⟩) ∧ inFlight .quiesce run = false ∧ inFlight .fence run = false
    ∧ inFlight .statsRead run = false ∧ inFlight .quiesce (with1 (.quiesce 5 0)) = true
    ∧ inFlight .statsRead (with1 (.statsRead (statsJob1 []))) = true ∧ inFlight .fence (with1 (.fence 1 [.linkOpen])) = true
    ∧ Ready (with1 (.quiesce 5 0)) geom := by
  refine ⟨ready, ?_, ?_, by decide, by decide, by decide, by decide, by decide, by decide, ⟨rfl, rfl, rfl, rfl⟩⟩ <;>
    (unfold FieldsInRange; decide)

theorem witness_OpenReopensIntake : Ready run geom ∧ inFlight .quiesce run = false ∧ Ready (with1 (.quiesce 5 0)) geom
    ∧ findDeferred .quiesce (with1 (.quiesce 5 0)) = some ⟨9, .quiesce 5 0⟩ :=
  ⟨ready, by decide, ⟨rfl, rfl, rfl, rfl⟩, by decide⟩

theorem witness_DeferredCommandsStartAndComplete_complete : run.part = .running
    ∧ findDeferred .quiesce (with1 (.quiesce 5 5)) = some ⟨9, .quiesce 5 5⟩ ∧ (5 : Nat) ≤ 5 ∧ (4 : Nat) < 5
    ∧ findDeferred .quiesce (with1 (.quiesce 5 4)) = some ⟨9, .quiesce 5 4⟩
    ∧ findDeferred .statsRead (with1 (.statsRead (statsJob1 []))) = some ⟨9, .statsRead (statsJob1 [])⟩
    ∧ (statsJob1 []).todo = [] ∧ run.bufWrites = [] ∧ (statsJob1 [.holdDepth]).todo ≠ [] := by decide

theorem witness_StatsItemReadClearsItsCounterAlone :
    (with1 (.statsRead (statsJob1 [.globalCounter 7]))).part = .running
      ∧ statsJob (with1 (.statsRead (statsJob1 [.globalCounter 7]))) = some (statsJob1 [.globalCounter 7])
      ∧ (statsJob1 [.globalCounter 7]).todo = .globalCounter 7 :: [] := by decide

theorem witness_StatsRecordsShowState : run.geom = some geom ∧ (zeros 48).length = 48 ∧ (zeros 64).length = 64
    ∧ (zeros 128).length = 128 ∧ (zeros 240).length = 240 ∧ (zeros 256).length = 256
    ∧ (5 : Fin 6).val = (3 : Fin 4).val + 2 := by decide

theorem witness_StatsReadFillsItsSections :
    statsJob (with1 (.statsRead (statsJob1 (itemsOf (sectionsOf 0x20))))) = some (statsJob1 (itemsOf (sectionsOf 0x20)))
      ∧ (List.replicate (itemsOf (sectionsOf 0x20)).length (0 : BitVec 16)).length = (itemsOf (sectionsOf 0x20)).length
      ∧ run.part = .running := by decide

theorem witness_FaultRaiseAndFaultsCommand_command : Ready run geom ∧ FieldsInRange run (.faults ⟨511, 511, 1, 8⟩)
    ∧ (8 : Byte).toNat = (8 : Fin 9).val := by
  refine ⟨ready, ?_, by decide⟩
  unfold FieldsInRange; decide

/-! ### Witnesses: Router, Release Unit, Ring Engine -/

theorem witness_RouterEndsEventsNotRouted :
    (none ≠ some DecisionStage.lookedUp ∧ run.part = .running ∧ run.deciding = none
      ∧ run.handover = none ∧ full.intake = event .rise :: List.replicate 63 (event .rise))
      ∧ run.routes[255].state = .unused ∧ (routed { entry with state := .suspended } run).routes[255].state = .suspended
      ∧ (routed entry run).routes[255].state = .active
      ∧ ({ entry with config := { entry.config with kinds := 30 } } : RouteEntry).config.kinds.getLsbD 0 = false
      ∧ ({ entry with config := { entry.config with width := 1 } } : RouteEntry).config.width ≠ 0 ∧ run.intake = [] := by
  decide

theorem witness_ForwardQueuesOrDropsFrame :
    (linkIn .up 0).session = .up ∧ (linkIn .up 0).window.length < 16
      ∧ ({ linkIn .up 0 with window := List.replicate 16 (windowFrame 0) } : Link).window.length = 16
      ∧ (List.replicate 15 txEvent).length < 16 ∧ 32 ≤ (List.replicate 16 (windowFrame 0)).length
        + (List.replicate 16 txEvent).length ∧ run.link.session ≠ .up
      ∧ ({ Link.reset with session := .up, own := 1, silenceTimer := some 0 } : Link).Sound := by
  refine ⟨by decide, by decide, by decide, by decide, by decide, by decide, ?_⟩
  exact ⟨by unfold Link.sequenced; decide, by decide, by decide, by decide, by decide, by decide, by decide, by decide,
    by decide, by decide, by decide⟩

/-- `run` at local time `now`, the entry `e` in place, with a RISE of capture time 100 in the intake. -/
def deciding (e : RouteEntry) (now : Nat) : State := { routed e run with localTime := now, intake := [event .rise] }

theorem witness_RouterDecidesRoutedEvents :
    ((deciding entry 110).part = .running ∧ (deciding entry 110).deciding = none ∧ (deciding entry 110).handover = none
      ∧ (deciding entry 110).intake = event .rise :: [] ∧ (deciding entry 110).routes[255].state = .active
      ∧ entry.config.kinds.getLsbD EventKind.rise.code = true ∧ entry.config.outputs ≠ 0
      ∧ (event .rise).flags.unaligned = false ∧ entry.config.late = .discard ∧ entry.config.latency ≠ 0)
    ∧ (event .rise).capture + entry.config.latency.toNat ≤ (deciding entry 110).localTime
    ∧ (deciding entry 109).localTime < (event .rise).capture + entry.config.latency.toNat
    ∧ (deciding entry 109).hold.length < 128
    ∧ ((deciding entry 109).hold.map HoldEntry.release).Pairwise (· ≤ ·)
    ∧ 128 ≤ (List.replicate 128 (⟨200, event .rise, 1, 0⟩ : HoldEntry)).length :=
  ⟨by decide, by decide, by decide, by decide, by decide, by simp⟩

/-- `run` with the decision on a RISE under way at this stage, its reading made while the entry was `e`. -/
def decided (e : RouteEntry) (stage : DecisionStage) : State :=
  { run with deciding := some { event := event .rise, suspended := decide (e.state = .suspended), config := e.config, stage := stage } }

theorem witness_RouterDecisionMayWait : (deciding entry 110).part = .running ∧ (deciding entry 110).deciding = none
    ∧ (deciding entry 110).handover = none ∧ (deciding entry 110).intake = event .rise :: []
    ∧ (decided entry .lookedUp).handover = none ∧ (decided entry .lookedUp).deciding.isSome = true
    ∧ entry.state = .active ∧ entry.config.kinds.getLsbD EventKind.rise.code = true
    ∧ (decided { entry with state := .suspended } .lookedUp).deciding.map Deciding.suspended = some true
    ∧ (deciding entry 110).routes[255].state ≠ .unused := by decide

/-- R17: an event of an UNUSED source ID is counted at the lookup, where its decision ends. -/
theorem test_unused_counted_at_lookup :
    let u := after (.routerTake (some .lookedUp)) { run with intake := [event .rise] }
    u.unrouted.line.toNat + u.unrouted.link.toNat + u.unrouted.host.toNat = 1 ∧ u.deciding = none := by decide

/-- R33, R50: an event whose decision had come past its lookup when its entry was cleared and purged is still inserted. -/
theorem test_insert_after_purge : (after (.routerTake none) (after (.routeClear 7 ⟨255, 1⟩)
    (after (.routerTake (some .lookedUp)) (deciding entry 20)))).hold.map HoldEntry.release = [110] := by
  decide +kernel

/-- `run` at local time `now` with a held entry due at 200, a hand-over or a delivery. -/
def holding (now : Nat) : State := { run with localTime := now, hold := [⟨200, event .rise, 1, 0⟩] }

def delivery (kind : EventKind) : Delivery :=
  { event := event kind, outputs := 0x8000, rings := 2, release := 100, late := false, time := 100, shift := 0 }

theorem witness_ReleaseUnitTakesDueHeadOrHandover : (holding 200).part = .running ∧ (holding 200).delivery = none
    ∧ (holding 200).hold = ⟨200, event .rise, 1, 0⟩ :: [] ∧ 200 ≤ (holding 200).localTime ∧ (holding 199).localTime < 200
    ∧ ({ run with handover := some ⟨event .rise, 1, 0, 100, false⟩ } : State).handover
      = some ⟨event .rise, 1, 0, 100, false⟩
    ∧ ({ run with delivery := some (delivery .rise) } : State).delivery ≠ none ∧ run.hold = [] ∧ run.handover = none := by
  decide

theorem witness_OutputPinsShowTheirLines : run.outputs[0].mode = .disabled ∧ (hosted none).outputs[15].mode ≠ .disabled
    ∧ (hosted none).outputs[15].drive = .pushPull ∧ (hosted none).outputs[15].driven = true
    ∧ run.outputs[0].driven = false
    ∧ ({ (hosted none).outputs[15] with drive := .openDrain } : OutputLine).drive = .openDrain := by decide

theorem witness_OutputUnitTakesRequestsAndEndsPulses :
    (delivery .fall).outputs.getLsbD 15 = true ∧ (hosted none).outputs[15].mode ≠ .routed
      ∧ ({ run.outputs[15] with mode := .routed } : OutputLine).mode = .routed
      ∧ (hosted (some 5)).outputs[15].pulse = some 5 ∧ (5 : Int) ≤ ((5 : Nat) : Int) ∧ ((4 : Nat) : Int) < 5
      ∧ run.outputs[15].pulse = none := by decide

theorem witness_RingEngineTakesRecordsOfPosters : run.geom = some geom ∧ geom.event[2].size = 0
    ∧ 2 ≤ geom.event[1].free ∧ ({ geom.event[1] with fill := 14 } : OutRing).free < 2 ∧ run.part = .running
    ∧ (delivery .rise).rings.getLsbD 1 = true ∧ noticeRing run = some 1 := by decide

theorem witness_RecordWriteCompletes : run.part = .running ∧ stopping.part = .stopping
    ∧ (filled.compl.assign (.loss 1)).writes = ⟨1, .loss 1⟩ :: []
    ∧ (filled.event[1].assign (.loss 1)).writes = ⟨1, .loss 1⟩ :: []
    ∧ ({ run with bufWrites := [⟨4096, [1]⟩] } : State).bufWrites = ⟨4096, [1]⟩ :: [] ∧ geom.compl.writes = []
    ∧ geom.event[3].writes = [] ∧ run.bufWrites = [] ∧ State.reset.part ≠ .running ∧ State.reset.part ≠ .stopping
    ∧ ({ State.reset with issued := [⟨4096, [1]⟩] } : State).issued[0]? = some ⟨4096, [1]⟩
    ∧ State.reset.issued.length ≤ 0 ∧ indexing.indexWrites = [] ++ ⟨.command, 1⟩ :: []
    ∧ (∀ w ∈ indexing.indexWrites, w.field ≠ .event 3)
    ∧ ¬ ((4096 : Nat) + 4 ≤ 4098 ∨ 4098 + 4 ≤ (4096 : Nat)) := by decide

/-- R146, R149: a completion's write ends, and later the write of the index that covers it. -/
theorem test_index_follows_record :
    let s := { run with geom := some { geom with compl := geom.compl.assign (.loss 1) } }
    let t := after (.recordWriteDone .completionRing) s
    let u := after (.recordWriteDone (.index .completion)) t
    (Memory.read t.hostMem 0x70004, t.intCause) = (none, 0) ∧ (Memory.read u.hostMem 0x70004, u.intCause) = (some 1, 1)
    := by decide

/-- R141: a bus-master error behind a command's take leaves its index unwritten, with the index of the command before it
in the status block. -/
theorem test_index_unwritten_at_halt :
    Memory.read (after .busMasterError (after (.timeRead 7) run)).hostMem 0x70000 = none
    ∧ Memory.read (after (.busMasterError (some ⟨7, .cancel 5, 1⟩) [] true) run).hostMem 0x70000 = some 1 := by decide

/-- R142: a buffer write that a device reset left on the bus completes there. -/
theorem test_issued_write_lands : Memory.read (after (.recordWriteDone (.issued 0))
    (after .reset { run with bufWrites := [⟨4096, [1]⟩] })).hostMem 4096 = some 1 := by decide

/-- R160: a part that halts inside the execution of a CANCEL hands no completion for it. -/
theorem test_halt_inside_command : (after (.busMasterError (some ⟨7, .cancel 5, 1⟩) []) run).geom.map
    (fun g => (g.cmd.consumer, g.compl.fill)) = some (1, 0) := by decide

/-- R83: an edge whose offer reaches the intake after the STOP counts in refused_closed. -/
theorem test_late_edge : (after (.stop none [.unfiltered 2 .high]) offering).inputs[2].counters.refusedClosed = 1 := by
  decide

/-! ### Witnesses: input lines and faults -/

/-- Input line 15 of `run` under BOTH with F = 5 and S = 50, its pin HIGH, at local time `now`. -/
def watched (now : Nat) (candidate window : Option Nat) (suppressed : Bool) : State :=
  { run with
    localTime := now
    inputs := run.inputs.set 15 { run.inputs[15] with
      config := { mode := .both, filter := 5, spacing := 50, source := 255, announce := true }
      raw := .high, candidate := candidate, spacingEnd := window, suppressed := suppressed } }

theorem witness_GlitchFilterAndSpacingWindow :
    (watched 15 (some 10) none false).inputs[15].candidate = some 10
      ∧ 10 + (watched 15 (some 10) none false).inputs[15].config.filter.toNat ≤ 15
      ∧ 14 < 10 + (watched 14 (some 10) none false).inputs[15].config.filter.toNat
      ∧ (watched 15 (some 10) none false).inputs[15].config.mode = .both
      ∧ (watched 15 (some 10) (some 60) false).inputs[15].spacingEnd ≠ none
      ∧ (watched 15 none none false).inputs[15].candidate = none
      ∧ (watched 15 none none false).inputs[15].raw ≠ .low ∧ (watched 15 none none false).part = .running
      ∧ run.inputs[15].config.mode = .off ∧ run.inputs[15].config.filter = 0 := by decide

theorem witness_GlitchFilterAndSpacingWindow_end :
    (watched 60 none (some 60) true).inputs[15].spacingEnd = some 60 ∧ 60 ≤ (watched 60 none (some 60) true).localTime
      ∧ (watched 59 none (some 60) true).localTime < 60 ∧ (watched 60 none (some 60) true).inputs[15].suppressed = true
      ∧ (watched 60 none (some 60) false).inputs[15].suppressed = false
      ∧ (watched 60 none none true).inputs[15].spacingEnd = none := by decide

theorem witness_FaultRaiseAndFaultsCommand :
    ({ run with raises := [⟨.deadline, 1⟩, ⟨.alignStale, 0⟩] } : State).raises[1]? = some ⟨.alignStale, 0⟩ := by decide

/-! ### Witnesses: the span link -/

theorem witness_SessionFramesMoveSession : run.resetHeld = false ∧ (after .resetNAssert run).resetHeld = true
    ∧ (65535 : Half) ≠ 0 ∧ run.link.session = .closed ∧ (linkIn .calling 0).session = .calling
    ∧ (4 : Half) ≠ (linkIn .calling 0).own
    ∧ (3 : Half) = (linkIn .calling 0).own ∧ (linkIn .up 0).session = .up ∧ (9 : Half) = (linkIn .up 0).recorded
    ∧ (8 : Half) ≠ (linkIn .up 0).recorded := by decide

/-- An EVENT frame of a RISE with sequence number `seq`. -/
def rxEvent (seq : Byte) : RxEventFields := { seq := seq, source := 1, kind := 0, param := 0, flags := 3, capture := 0 }

theorem witness_EventFramesAreTakenOrCounted : run.resetHeld = false ∧ rxKind (rxEvent 0) = some .rise
    ∧ (linkIn .up 0).session = .up ∧ ((linkIn .up 0).expected - (rxEvent 0).seq).toNat = 0
    ∧ ((linkIn .up 0).expected - (rxEvent 128).seq).toNat = 128 ∧ ((linkIn .up 0).expected - (rxEvent 127).seq).toNat = 129
    ∧ ((linkIn .up 0).expected - (rxEvent 255).seq).toNat = 1 ∧ run.link.session ≠ .up
    ∧ 4 < ({ rxEvent 0 with kind := 5 } : RxEventFields).kind.toNat
    ∧ 4 ≤ ({ rxEvent 0 with flags := 4 } : RxEventFields).flags.toNat := by decide

/-- `run` with the session UP and one frame in the window, its sequence number 255. -/
def oneSent : State := linked { linkIn .up 0 with window := [windowFrame 255] }

theorem witness_AckRemovesOldestFrames : oneSent.resetHeld = false ∧ oneSent.link.session = .up
    ∧ ((255 : Byte) - (windowFrame 255).seq).toNat = 0 ∧ ((0 : Byte) - (windowFrame 255).seq).toNat = 1
    ∧ oneSent.link.window.length = 1 ∧ oneSent.link.window.length < ((1 : Byte) - (windowFrame 255).seq).toNat
    ∧ run.link.session ≠ .up := by decide

/-- A link with probe 7 outstanding, its t1 100. -/
def probed (session : Session) : Link := { linkIn session 0 with outstanding := some (7, 100) }

theorem witness_ProbesAndEchoes : run.resetHeld = false ∧ (probed .up).session = .up
    ∧ (probed .aligning).session = .aligning ∧ run.link.session = .closed ∧ (probed .up).outstanding = some (7, 100)
    ∧ (100 : Quad) = BitVec.ofNat 64 100 ∧ 0 ≤ ((200 - 100) - ((500 : Int) - 500)).tdiv 2
    ∧ ((200 - 100) - ((500 : Int) - 500)).tdiv 2 ≤ ((probed .up).params.maxDelay : Int)
    ∧ ((probed .up).params.maxDelay : Int) < ((202 - 100) - ((500 : Int) - 500)).tdiv 2
    ∧ ((200 - 100) - ((702 : Int) - 600)).tdiv 2 < 0 ∧ (linkIn .up 0).outstanding = none := by decide

theorem witness_AcceptedEchoBringsSessionUp : run.resetHeld = false
    ∧ (linked (probed .aligning)).link.session = .aligning ∧ (linked (probed .aligning)).announcing = []
    ∧ (linked (probed .aligning)).link.outstanding = some (7, 100)
    ∧ (100 : Quad) = BitVec.ofNat 64 100 ∧ 0 ≤ ((200 - 100) - ((500 : Int) - 500)).tdiv 2
    ∧ ((200 - 100) - ((500 : Int) - 500)).tdiv 2 ≤ ((linked (probed .aligning)).link.params.maxDelay : Int) := by decide

theorem witness_TransmitterSendsNextFrame :
    ({ linkIn .up 0 with lane := some ⟨.idle 3, false⟩ } : Link).lane ≠ none ∧ (linkIn .up 0).lane = none
      ∧ ({ linkIn .up 0 with closeWait := some 3 } : Link).closeWait = some 3
      ∧ ({ linkIn .up 0 with echoes := [⟨1, 2, 3⟩] } : Link).echoes = ⟨1, 2, 3⟩ :: []
      ∧ ({ linkIn .up 0 with window := [windowFrame 0] } : Link).window = [] ++ windowFrame 0 :: []
      ∧ (windowFrame 0).isPending = true ∧ (linkIn .up 0).closeWait = none ∧ (linkIn .up 0).idles = [] := by decide

theorem witness_LinkTimersActOrFailSession :
    (linkIn .aligning 10000).session = .aligning ∧ (linkIn .aligning 10000).helloTimer = some 10000
      ∧ (linkIn .up 250).keepTimer = some 250 ∧ (linkIn .up 250).params.idleTimeout / 4 ≤ 250
      ∧ (linkIn .aligning 100000).params.alignInterval ≤ 100000 ∧ (linkIn .aligning 100000).attempts < 4
      ∧ 4 * (linkIn .up 400000).params.alignInterval ≤ 400000 ∧ (linkIn .up 100).params.ackTimeout ≤ 100
      ∧ (windowFrame 0).retry < (linkIn .up 100).params.retryLimit := by decide

theorem witness_LinkTimersActOrFailSession_fail :
    (linkIn .calling 100000).openTimer = some 100000 ∧ (linkIn .calling 100000).params.openTimeout ≤ 100000
      ∧ (linkIn .up 1000).silenceTimer = some 1000 ∧ (linkIn .up 1000).params.idleTimeout ≤ 1000
      ∧ 4 ≤ ({ linkIn .aligning 100000 with attempts := 4 } : Link).attempts
      ∧ (linkIn .up 100).params.retryLimit ≤ ({ windowFrame 0 with retry := 2 } : WindowFrame).retry := by decide

theorem witness_TickTimeReadAndTimeSet : run.resetHeld = false ∧ (after .resetNAssert run).resetHeld = true := by decide

/-! ### Witnesses: layouts -/

theorem witness_CommandRecordsReadBack : WellFormed (takeOf 7 (.timeSet (BitVec.allOnes 64))) = true
    ∧ WellFormed (takeOf 7 (.unknown 255)) = true := by decide

theorem witness_FramesReadBack : WellFormed (Frame.hello 65535 0).arrival = true
    ∧ WellFormed (Frame.hello 0 65535).arrival = false := by decide

end Sys2Proof.Machine.Tests
end

section
/-! PROOFS. Events and the intake: the capacities and order of the part's lists (O4), the part quiet outside RUNNING (O6),
the reset state (O3), events the Router does not route (O38), and sets of offers that are parted (O42). -/

namespace Sys2Proof.Machine

/-! ### Operations that only keep books

Most shared operations write counters, ring and fault books, the deferred set or host memory. `KeepsBooksOnly s t` says
that what the invariants of capacity, order and quiet speak of is in `t` as in `s`. -/

/-- What the invariants of capacity, order and quiet speak of. -/
structure Stores where
  part : PartState
  intakeOpen : Bool
  intake : List Event
  announcing : List (Fin 16)
  deciding : Option Deciding
  handover : Option Handover
  hold : List HoldEntry
  tags : List TagRecord
  delivery : Option Delivery
  inputs : Vector InputLine 16
  outputs : Vector OutputLine 16
  session : Session
  window : List WindowFrame
  waiting : List TxEvent

def State.stores (s : State) : Stores :=
  ⟨s.part, s.intakeOpen, s.intake, s.announcing, s.deciding, s.handover, s.hold, s.tags, s.delivery, s.inputs,
    s.outputs, s.link.session, s.link.window, s.link.waiting⟩

/-- Nothing that an invariant of capacity, order or quiet speaks of differs between the two states. -/
def KeepsBooksOnly (s t : State) : Prop := t.stores = s.stores

theorem KeepsBooksOnly.trans {s t u : State} (h : KeepsBooksOnly s t) (k : KeepsBooksOnly t u) :
    KeepsBooksOnly s u := Eq.trans k h

/-- A conditional operation keeps books only when its effect does. -/
theorem KeepsBooksOnly.ite {s t u : State} {c : Prop} [Decidable c] (ht : KeepsBooksOnly s t)
    (hu : KeepsBooksOnly s u) : KeepsBooksOnly s (if c then t else u) := by
  split
  · exact ht
  · exact hu

theorem setCause_books (c : Cause) (s : State) : KeepsBooksOnly s (setCause c s) := rfl

theorem takeRaise_books (r : Raise) (s : State) : KeepsBooksOnly s (takeRaise r s) := by
  rw [takeRaise_eq]; rfl

theorem takeRecord_books (ring : Fin 4) (r : HostRecord) (s : State) : KeepsBooksOnly s (takeRecord ring r s) := by
  rw [takeRecord_eq]; rfl

theorem handCompletion_books (kind : Byte) (tag : Word) (st : Status) (w1 w2 w3 : Word) (s : State) :
    KeepsBooksOnly s (handCompletion kind tag st w1 w2 w3 s) := by
  rw [handCompletion_eq]; rfl

theorem finishDeferred_books (k : DeferredKind) (st : Status) (w1 w2 w3 : Word) (s : State) :
    KeepsBooksOnly s (finishDeferred k st w1 w2 w3 s) := by
  rw [finishDeferred_eq]; rfl

theorem settle_books (s : State) : KeepsBooksOnly s (settle s) := by
  rw [settle_eq]; rfl

theorem finishImmediate_books (kind : Byte) (tag : Word) (st : Status) (w1 w2 w3 : Word) (s : State) :
    KeepsBooksOnly s (finishImmediate kind tag st w1 w2 w3 s) := by
  rw [finishImmediate_eq]; rfl

theorem commandFetch_books (s : State) : KeepsBooksOnly s (commandFetch s) := by
  rw [commandFetch_eq]; rfl

theorem takeCommand_books (s : State) : KeepsBooksOnly s (takeCommand s) := by
  rw [takeCommand_eq]; rfl

theorem commandIndexWritten_books (s : State) : KeepsBooksOnly s (commandIndexWritten s) := by
  rw [commandIndexWritten_eq]; rfl

theorem postLinkNotice_books (r : HostRecord) (s : State) : KeepsBooksOnly s (postLinkNotice r s) := by
  rw [postLinkNotice_eq]; rfl

theorem finishLinkOpen_books (st : Status) (s : State) : KeepsBooksOnly s (finishLinkOpen st s) :=
  finishDeferred_books _ _ _ _ _ s

/-- R110, R118: what a transition of the session does beside the link keeps books only. -/
theorem linkNoticed_books (st : Status) (r : HostRecord) (s : State) :
    KeepsBooksOnly s (finishLinkOpen st (postLinkNotice r s)) :=
  (postLinkNotice_books _ _).trans (finishLinkOpen_books _ _)

theorem finishQuiesce_books (st : Status) (s : State) : KeepsBooksOnly s (finishQuiesce st s) := by
  unfold finishQuiesce
  split
  · exact finishDeferred_books _ _ _ _ _ s
  · rfl

theorem answerCommand_books (kind : Byte) (tag : Word) (a : Answer) (s : State) :
    KeepsBooksOnly s (answerCommand kind tag a s) := by
  cases a with
  | done => exact finishImmediate_books _ _ _ _ _ _ s
  | joined => exact settle_books s
  | underWay => rfl

/-- R140: the ABORTED completions of the deferred set keep books only. -/
theorem abortDeferred_books (s : State) : KeepsBooksOnly s (abortDeferred s) := by
  have fold : ∀ (ds : List Deferred) (t : State), KeepsBooksOnly t (ds.foldl abortOne t) := by
    intro ds
    induction ds with
    | nil => exact fun t => Eq.refl t.stores
    | cons d ds ih => exact fun t => (handCompletion_books _ _ _ _ _ _ t).trans (ih _)
  exact (fold s.deferred s).trans rfl

/-- R100: the count of an intact frame and the restart of the silence timer keep books only. -/
theorem arrived_books (s : State) : KeepsBooksOnly s (arrived s) := by
  unfold arrived onLink Link.heard
  split <;> rfl

/-- R146, R177: writes into host memory that complete keep books only. -/
theorem recordWriteDone_books (target : WriteTarget) (s : State) : KeepsBooksOnly s (recordWriteDone target s) := by
  cases target with
  | completionRing =>
    refine .ite ?_ rfl
    unfold completionWritten
    split
    · rfl
    · split <;> rfl
  | eventRing ring =>
    refine .ite ?_ rfl
    unfold eventWritten
    split
    · rfl
    · split <;> rfl
  | index field =>
    refine .ite ?_ rfl
    unfold indexWritten
    split
    · cases field <;> rfl
    · rfl
  | statsBuffer =>
    refine .ite ?_ rfl
    unfold bufferWritten
    split
    · rfl
    · dsimp only; split <;> rfl
  | issued index =>
    simp only [recordWriteDone, issuedWritten]
    split
    · rfl
    · exact .ite rfl rfl

theorem submit_books (word : Word) (s : State) : KeepsBooksOnly s (submit word s) := by
  unfold submit
  split
  · exact .ite (KeepsBooksOnly.trans rfl (commandFetch_books _)) rfl
  · rfl

theorem release_books (word : Word) (s : State) : KeepsBooksOnly s (release word s) := by
  unfold release
  split
  · split
    · exact KeepsBooksOnly.trans rfl (commandFetch_books _)
    · rfl
  · rfl

theorem writeCause_books (word : Word) (s : State) : KeepsBooksOnly s (writeCause word s) := .ite rfl rfl

theorem writeEnable_books (word : Word) (s : State) : KeepsBooksOnly s (writeEnable word s) := .ite rfl rfl

theorem faultRaise_books (index : Nat) (s : State) : KeepsBooksOnly s (faultRaise index s) := by
  unfold faultRaise
  split
  · rfl
  · exact KeepsBooksOnly.trans rfl (takeRaise_books _ _)

theorem crcError_books (s : State) : KeepsBooksOnly s (crcError s) := .ite rfl rfl

theorem tick_books (s : State) : KeepsBooksOnly s (tick s) := .ite rfl rfl

theorem quiesceDeadline_books (s : State) : KeepsBooksOnly s (quiesceDeadline s) := by
  unfold quiesceDeadline
  split
  · exact .ite ((finishQuiesce_books _ _).trans (settle_books _)) rfl
  · rfl

theorem statsReadDone_books (s : State) : KeepsBooksOnly s (statsReadDone s) := by
  unfold statsReadDone
  split
  · exact .ite ((finishDeferred_books _ _ _ _ _ _).trans (settle_books _)) rfl
  · rfl

theorem frameSent_books (s : State) : KeepsBooksOnly s (frameSent s) := by
  unfold frameSent
  split <;> rfl

theorem takeProbe_books (number : Byte) (t1 : Quad) (s : State) : KeepsBooksOnly s (takeProbe number t1 s) :=
  .ite rfl rfl

theorem helloTimer_books (s : State) : KeepsBooksOnly s (helloTimer s) := .ite rfl rfl

theorem keepalive_books (s : State) : KeepsBooksOnly s (keepalive s) := .ite rfl rfl

theorem probeTimer_books (s : State) : KeepsBooksOnly s (probeTimer s) := .ite rfl rfl

theorem stalenessTimeout_books (s : State) : KeepsBooksOnly s (stalenessTimeout s) := .ite (.ite rfl rfl) rfl

/-! ### Capacities and order (R5, R35, R37, R55, R120)

`KeepsLists s t`: where the capacities and the order of the Hold Queue and the tag memory hold in `s` they hold in `t`.
Operations that leave the five lists alone, or take entries out of them, keep them; four operations put an entry in:
an accepted offer, an insertion into the Hold Queue, an accepted SCHEDULE and an enqueue. -/

/-- What a step keeps of the capacities and of the order. -/
structure KeepsLists (s t : State) : Prop where
  capacity : s.WithinCapacity → t.WithinCapacity
  ordered : s.HoldOrdered → t.HoldOrdered

theorem KeepsLists.refl (s : State) : KeepsLists s s := ⟨id, id⟩

theorem KeepsLists.trans {s t u : State} (h : KeepsLists s t) (k : KeepsLists t u) : KeepsLists s u :=
  ⟨k.capacity ∘ h.capacity, k.ordered ∘ h.ordered⟩

theorem KeepsLists.ite {s t u : State} {c : Prop} [Decidable c] (ht : c → KeepsLists s t)
    (hu : ¬ c → KeepsLists s u) : KeepsLists s (if c then t else u) := by
  split
  · exact ht ‹_›
  · exact hu ‹_›

/-- Entries taken out leave every list within its capacity and in its order. -/
theorem KeepsLists.of_sublist {s t : State} (intake : t.intake.Sublist s.intake) (hold : t.hold.Sublist s.hold)
    (tags : t.tags.Sublist s.tags) (window : t.link.window.length ≤ s.link.window.length)
    (queue : t.link.queueDepth ≤ s.link.queueDepth) : KeepsLists s t where
  capacity h :=
    { intake := intake.length_le.trans h.intake
      hold := hold.length_le.trans h.hold
      tags := tags.length_le.trans h.tags
      window := window.trans h.window
      queue := queue.trans h.queue }
  ordered h :=
    { sorted := h.sorted.sublist (hold.map _)
      sound := fun x hx => h.sound x (hold.subset hx)
      tags := h.tags.sublist (tags.map _) }

/-- The five lists. -/
def State.lists (s : State) : List Event × List HoldEntry × List TagRecord × List WindowFrame × List TxEvent :=
  (s.intake, s.hold, s.tags, s.link.window, s.link.waiting)

theorem KeepsLists.of_lists {s t : State} (h : t.lists = s.lists) : KeepsLists s t := by
  simp only [State.lists, Prod.mk.injEq] at h
  obtain ⟨hi, hh, ht, hw, hq⟩ := h
  exact .of_sublist (hi ▸ List.Sublist.refl _) (hh ▸ List.Sublist.refl _) (ht ▸ List.Sublist.refl _)
    (hw ▸ Nat.le_refl _) (by simp [Link.queueDepth, hw, hq])

/-- An operation that keeps the lists, after one that leaves them alone. -/
theorem KeepsLists.after_same {s t u : State} (k : KeepsLists t u) (h : t.lists = s.lists) : KeepsLists s u :=
  (KeepsLists.of_lists h).trans k

theorem KeepsBooksOnly.keepsLists {s t : State} (h : KeepsBooksOnly s t) : KeepsLists s t :=
  .of_lists (congrArg (fun x : Stores => (x.intake, x.hold, x.tags, x.window, x.waiting)) h)

/-- R5, R6: an accepted offer finds a free place. -/
theorem offerEvent_keepsLists (e : Event) (s : State) : KeepsLists s (offerEvent e s) := by
  by_cases ha : offerAnswer s = .accepted
  · have hlt := ((offerAnswer_accepted_iff s).1 ha).2
    have hlen : (offerEvent e s).intake.length ≤ Config.intakeCapacity := by
      rw [offerEvent_intake, if_pos ha]; simpa using hlt
    rw [offerEvent_eq]
    exact ⟨fun h => ⟨hlen, h.hold, h.tags, h.window, h.queue⟩, fun h => ⟨h.sorted, h.sound, h.tags⟩⟩
  · refine .of_lists ?_
    rw [offerEvent_eq, offerEvent_intake, if_neg ha]

/-! #### The link (R120, R121) -/

/-- R120: the window and the transmit queue are within their capacities. -/
def Link.Fits (l : Link) : Prop := l.window.length ≤ Config.windowCapacity ∧ l.queueDepth ≤ Config.transmitCapacity

theorem onLink_keepsLists {f : Link → Link} {s : State} (hf : s.link.Fits → (f s.link).Fits) :
    KeepsLists s (onLink f s) where
  capacity h :=
    { intake := h.intake, hold := h.hold, tags := h.tags
      window := (hf ⟨h.window, h.queue⟩).1, queue := (hf ⟨h.window, h.queue⟩).2 }
  ordered h := ⟨h.sorted, h.sound, h.tags⟩

/-- R121: the window is filled up to its capacity. -/
theorem Link.Fits.fillWindow {l : Link} (h : l.Fits) : l.fillWindow.Fits := by
  obtain ⟨hw, hq⟩ := h
  refine ⟨(enterWindow_window_le _ l).trans ?_, (enterWindow_queueDepth _ l).trans_le hq⟩
  omega

/-- R120, R121: a frame is enqueued where the queue has room. -/
theorem Link.Fits.enqueue {l : Link} (h : l.Fits) (hroom : l.queueDepth < Config.transmitCapacity) (e : TxEvent) :
    (l.enqueue e).Fits := by
  have hgrown : ({ l with waiting := l.waiting ++ [e] } : Link).Fits := by
    refine ⟨h.1, ?_⟩
    simp only [Link.queueDepth, List.length_append, List.length_singleton] at hroom ⊢
    omega
  exact hgrown.fillWindow

theorem Link.Fits.acknowledge {l : Link} (h : l.Fits) (d : Nat) : (l.acknowledge d).Fits := by
  have hdropped : ({ l with window := l.window.drop d } : Link).Fits := by
    simp only [Link.Fits, Link.queueDepth, List.length_drop] at h ⊢
    omega
  exact hdropped.fillWindow

/-- R117: an exit empties the window and the queue. -/
theorem Link.Fits.leave {l : Link} (h : l.Fits) : l.leave.Fits := by
  unfold Link.leave
  split
  · exact ⟨Nat.zero_le _, Nat.zero_le _⟩
  · exact h

theorem takePending_length {ws : List WindowFrame} {r : List WindowFrame × LaneFrame} (h : takePending ws = some r) :
    r.1.length = ws.length := by
  induction ws generalizing r with
  | nil => simp [takePending] at h
  | cons w ws ih =>
    simp only [takePending] at h
    split at h
    · cases h; rfl
    · obtain ⟨q, hq, rfl⟩ := Option.map_eq_some_iff.1 h
      simp [ih hq]

/-- R122: the transmitter marks a frame of the window and takes none out of it. -/
theorem Link.Fits.transmit {l : Link} (h : l.Fits) (now : Nat) : (l.transmit now).Fits := by
  unfold Link.transmit
  split
  · exact h
  split
  · exact h
  split
  · exact h
  split
  · exact h
  split
  · exact h
  split
  · rename_i r hr
    simpa only [Link.Fits, Link.queueDepth, takePending_length hr] using h
  split <;> exact h

theorem resendWindow_length (ws : List WindowFrame) : (resendWindow ws).length = ws.length := by
  cases ws <;> simp [resendWindow]

/-! #### The Hold Queue and the tag memory (R35, R37, R55) -/

/-- R37, R38: an insertion finds a free place, and a sound entry enters in its order. -/
theorem insertHold_keepsLists {h : HoldEntry} (hs : h.Sound) (s : State) : KeepsLists s (insertHold h s) := by
  unfold insertHold
  refine .ite (fun hroom => ⟨fun c => ?_, fun o => ?_⟩) (fun _ => .of_lists rfl)
  · have hlen : (holdInsert h s.hold).length ≤ Config.holdCapacity := by simpa using hroom
    exact ⟨c.intake, hlen, c.tags, c.window, c.queue⟩
  · refine ⟨holdInsert_sorted h o.sorted, fun x hx => ?_, o.tags⟩
    rcases (mem_holdInsert h x s.hold).1 hx with rfl | hx
    · exact hs
    · exact o.sound x hx

theorem unaligned_of_held {c : RouteConfig} {e : Event} {now : Nat} (h : outcomeOf c e now = .held) :
    e.flags.unaligned = false := by
  cases hu : e.flags.unaligned with
  | false => rfl
  | true => simp [outcomeOf, hu] at h

/-- R25, R35: an event is held only where it is not UNALIGNED, and goes on only with a local destination. -/
theorem decideLocal_keepsLists (c : RouteConfig) (e : Event) (s : State) : KeepsLists s (decideLocal c e s) := by
  refine .ite (fun _ => .refl s) fun hdest => ?_
  simp only [decideOutcome]
  split
  · exact .of_lists rfl
  · split <;> exact .of_lists rfl
  · rename_i hheld
    exact insertHold_keepsLists ⟨unaligned_of_held hheld, not_and_or.1 hdest⟩ s

/-- R56: a mark in the tag memory moves no tag. -/
theorem markForwarded_keepsLists (o : Origin) (s : State) : KeepsLists s (markForwarded o s) := by
  cases o with
  | line => exact .refl s
  | link => exact .refl s
  | host tag =>
    refine ⟨fun h => ⟨h.intake, h.hold, ?_, h.window, h.queue⟩, fun h => ⟨h.sorted, h.sound, ?_⟩⟩
    · simpa [markForwarded, tagsAfterForward] using h.tags
    · simpa [markForwarded] using h.tags

/-- R23, R120: a frame is enqueued only where the queue has room. -/
theorem forward_keepsLists (e : Event) (s : State) : KeepsLists s (forward e s) := by
  unfold forward
  split
  · rename_i hq
    have hroom : s.link.queueDepth < Config.transmitCapacity := by
      unfold Link.enqueueAnswer at hq
      split at hq
      · split at hq
        · assumption
        · cases hq
      · cases hq
    have hsent : KeepsLists s (onLink (Link.enqueue (txEventOf e)) s) :=
      onLink_keepsLists fun h => h.enqueue hroom _
    exact hsent.trans ((markForwarded_keepsLists _ _).after_same rfl)
  · exact .of_lists rfl
  · exact .of_lists rfl

theorem forwardPart_keepsLists (c : RouteConfig) (e : Event) (s : State) : KeepsLists s (forwardPart c e s) :=
  .ite (fun _ => forward_keepsLists e s) fun _ => .refl s

theorem Deciding.reach_keepsLists (d : Deciding) (pause : Option DecisionStage) {run : State → State} {s : State}
    (h : KeepsLists s (run s)) : KeepsLists s (d.reach pause run s) :=
  .ite (fun _ => .of_lists rfl) fun _ => h

theorem decideForward_keepsLists (pause : Option DecisionStage) (d : Deciding) (s : State) :
    KeepsLists s (decideForward pause d s) :=
  (forwardPart_keepsLists _ _ s).trans (Deciding.reach_keepsLists _ _ (decideLocal_keepsLists _ _ _))

theorem routeEvent_keepsLists (pause : Option DecisionStage) (d : Deciding) (s : State) :
    KeepsLists s (routeEvent pause d s) :=
  (Deciding.reach_keepsLists _ _ (decideForward_keepsLists _ _ _)).after_same rfl

theorem decideReading_keepsLists (pause : Option DecisionStage) (d : Deciding) (s : State) :
    KeepsLists s (decideReading pause d s) := by
  refine .ite (fun _ => .of_lists rfl) fun _ => .ite (fun _ => ?_) fun _ => .of_lists rfl
  split
  · exact .of_lists rfl
  · exact routeEvent_keepsLists _ _ _

/-- R18: the Router's step keeps capacities and order, whatever reading a decision under way holds. -/
theorem routerTake_keepsLists (pause : Option DecisionStage) (s : State) : KeepsLists s (routerTake pause s) := by
  refine .ite (fun _ => ?_) fun _ => .refl s
  split
  · refine KeepsLists.trans ?_ (settle_books _).keepsLists
    rename_i d _ _
    refine KeepsLists.trans (t := { s with deciding := none }) (.of_lists rfl) ?_
    unfold resumeDecision
    split
    · exact decideReading_keepsLists _ _ _
    · exact decideForward_keepsLists _ _ _
    · exact decideLocal_keepsLists _ _ _
  · exact .refl s
  · rename_i e rest _ hi
    refine KeepsLists.trans ?_ (settle_books _).keepsLists
    refine KeepsLists.trans (t := { s with intake := rest }) (.of_sublist ?_ (.refl _) (.refl _) le_rfl le_rfl) ?_
    · rw [hi]; exact List.sublist_cons_self e rest
    · unfold decideEvent
      split
      · exact .of_lists rfl
      · exact Deciding.reach_keepsLists _ _ (decideReading_keepsLists _ _ _)

theorem holdRelease_keepsLists (s : State) : KeepsLists s (holdRelease s) := by
  refine .ite (fun _ => ?_) fun _ => .refl s
  split
  · exact .refl s
  · rename_i h rest hh
    have taken : rest.Sublist s.hold := hh ▸ List.sublist_cons_self h rest
    exact .ite (fun _ => .of_sublist (.refl _) taken (.refl _) le_rfl le_rfl) fun _ => .refl s

theorem handoverTake_keepsLists (s : State) : KeepsLists s (handoverTake s) := by
  refine .ite (fun _ => ?_) fun _ => .refl s
  split
  · exact .refl s
  · exact .of_lists rfl

theorem applicationRequest_keepsLists (line : Fin 16) (s : State) : KeepsLists s (applicationRequest line s) := by
  unfold applicationRequest
  split
  · exact .refl s
  · exact .ite (fun _ => (settle_books _).keepsLists.after_same rfl) fun _ => .refl s

theorem eventRecordTake_keepsLists (poster : Poster) (s : State) : KeepsLists s (eventRecordTake poster s) := by
  refine .ite (fun _ => ?_) fun _ => .refl s
  cases poster with
  | release ring =>
    dsimp only
    split
    · exact .refl s
    · refine .ite (fun _ => ?_) fun _ => .refl s
      exact ((takeRecord_books _ _ _).trans (settle_books _)).keepsLists.after_same rfl
  | faultUnit =>
    dsimp only
    split
    · exact (takeRecord_books _ _ _).keepsLists.after_same rfl
    · exact .refl s
  | linkController =>
    dsimp only
    split
    · exact (takeRecord_books _ _ _).keepsLists.after_same rfl
    · exact .refl s

/-- R55: the tags stay distinct, and a seventeenth takes the place of the oldest. -/
theorem tagsAfterSchedule_nodup (tag : Word) {ts : List TagRecord} (h : (ts.map TagRecord.tag).Nodup) :
    ((tagsAfterSchedule tag ts).map TagRecord.tag).Nodup := by
  have append : ∀ (us : List TagRecord) (r : TagRecord), us.Sublist ts → r.tag = tag → (∀ u ∈ us, u.tag ≠ tag) →
      ((us ++ [r]).map TagRecord.tag).Nodup := by
    intro us r hsub hr hne
    rw [List.map_append, List.map_singleton, hr, List.nodup_append]
    refine ⟨h.sublist (hsub.map _), List.nodup_singleton _, ?_⟩
    rintro a ha b hb rfl
    obtain ⟨u, hu, hut⟩ := List.mem_map.1 ha
    exact hne u hu (hut.trans (List.mem_singleton.1 hb))
  unfold tagsAfterSchedule
  split
  · rename_i r hfind
    exact append _ _ List.filter_sublist (by simpa using List.find?_some hfind) fun u hu => by
      simpa using (List.mem_filter.1 hu).2
  · rename_i hfind
    have habsent : ∀ u ∈ ts, u.tag ≠ tag := fun u hu => by simpa using List.find?_eq_none.1 hfind u hu
    have hsub : (if ts.length < Config.tagCapacity then ts else ts.drop 1).Sublist ts := by
      split
      · exact .refl _
      · exact List.drop_sublist _ _
    exact append _ _ hsub rfl fun u hu => habsent u (hsub.subset hu)

theorem tagsAfterSchedule_length (tag : Word) {ts : List TagRecord} (h : ts.length ≤ Config.tagCapacity) :
    (tagsAfterSchedule tag ts).length ≤ Config.tagCapacity := by
  have hpos : 0 < Config.tagCapacity := by decide
  unfold tagsAfterSchedule
  split
  · rename_i r hfind
    have hlt : (ts.filter fun t => t.tag != tag).length < ts.length :=
      List.length_filter_lt_length_iff_exists.2 ⟨r, List.mem_of_find?_eq_some hfind, by
        simpa using List.find?_some hfind⟩
    simp only [List.length_append, List.length_singleton]
    omega
  · rw [List.length_append, List.length_singleton]
    split
    · omega
    · rw [List.length_drop]; omega

/-- R55: the tag memory takes the tag of an accepted SCHEDULE. -/
theorem schedule_keepsLists (tag : Word) (s : State) :
    KeepsLists s { s with tags := tagsAfterSchedule tag s.tags } :=
  ⟨fun h => ⟨h.intake, h.hold, tagsAfterSchedule_length tag h.tags, h.window, h.queue⟩,
    fun h => ⟨h.sorted, h.sound, tagsAfterSchedule_nodup tag h.tags⟩⟩

/-! #### The Capture Unit -/

theorem loseToFull_keepsLists (n : Fin 16) (l : InputLine) (s : State) : KeepsLists s (loseToFull n l s) :=
  .of_lists rfl

theorem loseToClosed_keepsLists (n : Fin 16) (l : InputLine) (s : State) : KeepsLists s (loseToClosed n l s) :=
  .of_lists rfl

theorem offerEdge_keepsLists (n : Fin 16) (l : InputLine) (e : Event) (level : Level) (window : Option Nat)
    (s : State) : KeepsLists s (offerEdge n l e level window s) := by
  unfold offerEdge
  split
  · exact (offerEvent_keepsLists e s).trans (.of_lists rfl)
  · exact loseToFull_keepsLists _ _ _
  · exact loseToClosed_keepsLists _ _ _

theorem acceptChange_keepsLists (n : Fin 16) (l : InputLine) (stamp : Nat) (s : State) :
    KeepsLists s (acceptChange n l stamp s) :=
  .ite (fun _ => .ite (fun _ => .of_lists rfl) fun _ => offerEdge_keepsLists _ _ _ _ _ _) fun _ => .of_lists rfl

theorem rawChange_keepsLists (n : Fin 16) (level : Level) (s : State) : KeepsLists s (rawChange n level s) := by
  refine .ite (fun _ => .refl s) fun _ => .ite (fun _ => ?_) fun _ => .of_lists rfl
  split
  · exact .of_lists rfl
  · exact .ite (fun _ => acceptChange_keepsLists _ _ _ _) fun _ => .of_lists rfl

theorem filterAccept_keepsLists (n : Fin 16) (s : State) : KeepsLists s (filterAccept n s) := by
  unfold filterAccept
  dsimp only
  split
  · exact .refl s
  · exact .ite (fun _ => acceptChange_keepsLists _ _ _ _) fun _ => .refl s

theorem spacingEnd_keepsLists (n : Fin 16) (s : State) : KeepsLists s (spacingEnd n s) := by
  unfold spacingEnd
  dsimp only
  split
  · exact .refl s
  · refine .ite (fun _ => ?_) fun _ => .refl s
    split
    · exact .of_lists rfl
    · exact offerEdge_keepsLists _ _ _ _ _ _

theorem offerState_keepsLists (n : Fin 16) (s : State) : KeepsLists s (offerState n s) := by
  unfold offerState
  dsimp only
  split
  · exact (offerEvent_keepsLists _ s).trans (.of_lists rfl)
  · exact .refl s
  · exact .refl s

theorem announceLine_keepsLists (n : Fin 16) (s : State) : KeepsLists s (announceLine n s) := by
  refine .ite (fun _ => .refl s) fun _ => ?_
  split
  · exact offerState_keepsLists n s
  · exact loseToFull_keepsLists _ _ _
  · exact loseToClosed_keepsLists _ _ _

theorem announceNext_keepsLists (k : Nat) (s : State) : KeepsLists s (announceNext k s) := by
  induction k generalizing s with
  | zero => exact .refl s
  | succ k ih =>
    simp only [announceNext]
    split
    · exact .refl s
    · exact ((announceLine_keepsLists _ _).trans (ih _)).after_same rfl

theorem announce_keepsLists (pause : Option Nat) (s : State) : KeepsLists s (announce pause s) :=
  KeepsLists.after_same (t := { s with announcing := s.announcing ++ announcingLines s })
    (announceNext_keepsLists _ _) rfl

/-! #### The link -/

theorem enterFailed_keepsLists (r : Reason) (s : State) : KeepsLists s (enterFailed r s) :=
  KeepsLists.trans (onLink_keepsLists (f := fun l => { l.leave with session := .failed, reason := r }) fun h => h.leave)
    ((linkNoticed_books _ _ _).keepsLists.after_same rfl)

theorem enterClosed_keepsLists (r : Reason) (sendClose : Bool) (s : State) :
    KeepsLists s (enterClosed r sendClose s) := by
  refine KeepsLists.trans (onLink_keepsLists fun h => ?_) (linkNoticed_books _ _ _).keepsLists
  cases sendClose <;> exact h.leave

theorem enterUp_keepsLists (pause : Option Nat) (s : State) : KeepsLists s (enterUp pause s) := by
  have noticed := (linkNoticed_books .ok (linkNotice (onLink Link.enterUp s)) (onLink Link.enterUp s)).keepsLists
  refine KeepsLists.trans ?_ (announce_keepsLists pause _)
  exact noticed.after_same rfl

/-- A frame is counted and taken, and what is due completes. -/
theorem receive_keepsLists {f : State → State} (hf : ∀ s, KeepsLists s (f s)) (s : State) :
    KeepsLists s (receive f s) :=
  .ite (fun _ => .refl s) fun _ =>
    ((arrived_books s).keepsLists.trans (hf _)).trans (settle_books _).keepsLists

theorem takeHello_keepsLists (sender seen : Half) (s : State) : KeepsLists s (takeHello sender seen s) := by
  unfold takeHello
  split
  · exact .of_lists rfl
  · exact .of_lists rfl
  · refine onLink_keepsLists fun h => ?_
    unfold Link.helloInCall
    split <;> exact h
  · exact .ite (fun _ => .refl s) fun _ => enterFailed_keepsLists _ _
  · exact .ite (fun _ => .refl s) fun _ => enterFailed_keepsLists _ _

theorem takeClose_keepsLists (sender : Half) (s : State) : KeepsLists s (takeClose sender s) :=
  .ite (fun _ => enterClosed_keepsLists _ _ _) fun _ => .of_lists rfl

theorem takeExpected_keepsLists (f : RxEventFields) (kind : EventKind) (s : State) :
    KeepsLists s (takeExpected f kind s) := by
  unfold takeExpected
  split
  · exact (offerEvent_keepsLists _ _).after_same rfl
  · exact .of_lists rfl
  · exact .of_lists rfl

theorem takeSequence_keepsLists (f : RxEventFields) (kind : EventKind) (s : State) :
    KeepsLists s (takeSequence f kind s) := by
  unfold takeSequence
  dsimp only
  split
  · exact takeExpected_keepsLists f kind s
  · split <;> exact .of_lists rfl

theorem takeEvent_keepsLists (f : RxEventFields) (s : State) : KeepsLists s (takeEvent f s) := by
  unfold takeEvent
  split
  · split <;> exact .of_lists rfl
  · split
    · exact takeSequence_keepsLists _ _ _
    · exact .of_lists rfl

theorem takeAck_keepsLists (next : Byte) (s : State) : KeepsLists s (takeAck next s) :=
  .ite (fun _ => .ite (fun _ => .refl s) fun _ =>
    .ite (fun _ => onLink_keepsLists fun h => h.acknowledge _) fun _ => .of_lists rfl) fun _ => .of_lists rfl

theorem takeEcho_keepsLists (number : Byte) (t1 t2 t3 : Quad) (pause : Option Nat) (s : State) :
    KeepsLists s (takeEcho number t1 t2 t3 pause s) := by
  refine .ite (fun _ => ?_) fun _ => .of_lists rfl
  split
  · refine .ite (fun _ => ?_) fun _ => .of_lists rfl
    exact .ite (fun _ => (enterUp_keepsLists _ _).after_same rfl) fun _ => .of_lists rfl
  · exact .of_lists rfl

theorem rxEcho_keepsLists (number : Byte) (t1 t2 t3 : Quad) (part : EchoPart) (s : State) :
    KeepsLists s (rxEcho number t1 t2 t3 part s) := by
  cases part with
  | frame pause => exact receive_keepsLists (takeEcho_keepsLists number t1 t2 t3 pause) s
  | announce pause => exact .ite (fun _ => announceNext_keepsLists _ _) fun _ => .refl s

theorem frameTransmit_keepsLists (s : State) : KeepsLists s (frameTransmit s) :=
  .ite (fun _ => onLink_keepsLists fun h => h.transmit _) fun _ => .refl s

/-- R107, R109, R112, R125: a timer that fails the session. -/
theorem sessionFails_keepsLists (r : Reason) (s : State) : KeepsLists s (settle (enterFailed r s)) :=
  (enterFailed_keepsLists r s).trans (settle_books _).keepsLists

theorem openTimeout_keepsLists (s : State) : KeepsLists s (openTimeout s) :=
  .ite (fun _ => sessionFails_keepsLists _ s) fun _ => .refl s

theorem silenceTimeout_keepsLists (s : State) : KeepsLists s (silenceTimeout s) :=
  .ite (fun _ => sessionFails_keepsLists _ s) fun _ => .refl s

theorem probeAttemptEnd_keepsLists (s : State) : KeepsLists s (probeAttemptEnd s) :=
  .ite (fun _ => .ite (fun _ => .of_lists rfl) fun _ => sessionFails_keepsLists _ s) fun _ => .refl s

theorem ackTimeout_keepsLists (s : State) : KeepsLists s (ackTimeout s) := by
  refine .ite (fun _ => ?_) fun _ => .refl s
  split
  · exact .refl s
  · refine .ite (fun _ => onLink_keepsLists fun h => ?_) fun _ => sessionFails_keepsLists _ s
    simpa only [Link.Fits, Link.queueDepth, resendWindow_length] using h

/-! #### Part states (9.1) -/

theorem offerLate_keepsLists (x : LateOffer) (s : State) : KeepsLists s (offerLate x s) := by
  cases x with
  | edge line => exact filterAccept_keepsLists line s
  | unfiltered line level => exact rawChange_keepsLists line level s
  | catchUp line => exact spacingEnd_keepsLists line s
  | announce => exact announceNext_keepsLists 1 s
  | frame f => exact receive_keepsLists (takeEvent_keepsLists f) s

theorem offersLate_keepsLists (late : List LateOffer) (s : State) : KeepsLists s (offersLate late s) := by
  have fold : ∀ t, KeepsLists t (late.foldl (fun t x => offerLate x t) t) := by
    induction late with
    | nil => exact .refl
    | cons x xs ih => exact fun t => (offerLate_keepsLists x t).trans (ih _)
  exact (fold { s with intakeOpen := false }).after_same rfl

/-- R53, R54: discarded events leave empty lists. -/
theorem discardEvents_keepsLists (s : State) : KeepsLists s (discardEvents s) :=
  .of_sublist (List.nil_sublist _) (List.nil_sublist _) (.refl _) le_rfl le_rfl

theorem closeAtStop_keepsLists (s : State) : KeepsLists s (closeAtStop s) :=
  .ite (fun _ => .refl s) fun _ => enterClosed_keepsLists _ _ s

theorem closeAtHalt_keepsLists (s : State) : KeepsLists s (closeAtHalt s) :=
  .ite (fun _ => .refl s) fun _ => onLink_keepsLists fun h => h.leave

theorem enterStopping_keepsLists (late : List LateOffer) (s : State) : KeepsLists s (enterStopping late s) := by
  have closed : KeepsLists s (closeAtStop (abortDeferred (offersLate late s))) :=
    ((offersLate_keepsLists late s).trans (abortDeferred_books _).keepsLists).trans (closeAtStop_keepsLists _)
  refine closed.trans ?_
  exact .of_sublist (List.nil_sublist _) (List.nil_sublist _) (List.nil_sublist _) le_rfl le_rfl

theorem enterHalted_keepsLists (late : List LateOffer) (s : State) : KeepsLists s (enterHalted late s) := by
  have discarded : KeepsLists s (discardEvents (closeAtHalt (offersLate late s))) :=
    ((offersLate_keepsLists late s).trans (closeAtHalt_keepsLists _)).trans (discardEvents_keepsLists _)
  refine discarded.trans ?_
  exact ((takeRaise_books _ _).trans (setCause_books _ _)).keepsLists.after_same rfl

/-- R142: every list is empty after a device reset. -/
theorem deviceReset_keepsLists (s : State) : KeepsLists s (deviceReset s) :=
  .of_sublist (List.nil_sublist _) (List.nil_sublist _) (List.nil_sublist _) (Nat.zero_le _) (Nat.zero_le _)

theorem startPart_keepsLists (s : State) : KeepsLists s (startPart s) := by
  refine .ite (fun _ => .refl s) fun _ => .ite (fun _ => ?_) fun _ => .refl s
  have emptied : ∀ t : State, t.lists = ([], [], s.lists.2.2) → KeepsLists s t := by
    intro t ht
    simp only [State.lists, Prod.mk.injEq] at ht
    obtain ⟨hi, hh, ht, hw, hq⟩ := ht
    exact .of_sublist (hi ▸ List.nil_sublist _) (hh ▸ List.nil_sublist _) (ht ▸ .refl _) (hw ▸ le_rfl)
      (by simp [Link.queueDepth, hw, hq])
  exact .ite (fun _ => emptied _ rfl) fun _ => emptied _ rfl

theorem setupReadDone_keepsLists (b : SetupBlock) (s : State) : KeepsLists s (setupReadDone b s) := by
  unfold setupReadDone
  split
  · exact .ite (fun _ => .of_lists rfl) fun _ => .of_lists rfl
  · exact .refl s

theorem statusBlockInitDone_keepsLists (s : State) : KeepsLists s (statusBlockInitDone s) := by
  unfold statusBlockInitDone
  split
  · exact .of_sublist (List.nil_sublist _) (List.nil_sublist _) (.refl _) le_rfl le_rfl
  · exact .refl s

theorem stoppingEnd_keepsLists (s : State) : KeepsLists s (stoppingEnd s) :=
  .ite (fun _ => (commandIndexWritten_books s).keepsLists.trans (.of_lists rfl)) fun _ => .refl s

/-! #### Commands (chapter 10) -/

/-- An execution keeps capacities and order, whatever falls inside it. -/
def Execution.KeepsLists (x : Execution) : Prop := ∀ (falls : Falls) (s : State), Machine.KeepsLists s (x falls s).1

theorem whole_keepsLists {f : State → State × Answer} (hf : ∀ s, KeepsLists s (f s).1) :
    Execution.KeepsLists (whole f) := by
  rintro (_ | ⟨_ | n, late⟩ | ⟨_ | n⟩) s
  · exact hf s
  · exact (enterStopping_keepsLists late s).trans (hf _)
  · exact (hf s).trans (enterStopping_keepsLists late _)
  · exact .refl s
  · exact hf s

theorem rejected_keepsLists (status : Status) (s : State) : KeepsLists s (rejected status s).1 := .refl s

theorem advance_keepsLists (k : Nat) : ∀ (w : OfferSet) (s : State), KeepsLists s (w.advance k s).1 := by
  induction k with
  | zero => exact fun w s => .refl s
  | succ k ih =>
    intro w s
    simp only [OfferSet.advance]
    split
    · exact .refl s
    · rename_i n rest _
      refine KeepsLists.trans ?_ (ih _ _)
      unfold OfferSet.offer
      split
      · exact offerState_keepsLists n s
      · exact .refl s
      · exact .refl s

theorem makeOffers_keepsLists (w : OfferSet) : Execution.KeepsLists (makeOffers w) := by
  rintro (_ | ⟨requests, late⟩ | requests) s
  · exact advance_keepsLists _ w s
  · exact (advance_keepsLists requests w s).trans (enterStopping_keepsLists late _)
  · exact advance_keepsLists requests w s

theorem refreshExecution_keepsLists (tag lines : Word) : (refreshExecution tag lines).KeepsLists := by
  intro falls s
  unfold refreshExecution
  split
  · exact makeOffers_keepsLists _ falls s
  · exact whole_keepsLists (rejected_keepsLists _) falls s

theorem routeSetExecution_keepsLists (tag : Word) (f : RouteSetFields) : (routeSetExecution tag f).KeepsLists := by
  intro falls s
  unfold routeSetExecution
  split
  · split
    · exact (makeOffers_keepsLists _ falls _).after_same rfl
    · exact whole_keepsLists (fun _ => .of_lists rfl) falls s
  · exact whole_keepsLists (rejected_keepsLists _) falls s

theorem purge_keepsLists (source : Byte) (s : State) : KeepsLists s (purge source s) :=
  .of_sublist (.refl _) List.filter_sublist (.refl _) le_rfl le_rfl

theorem cancelTag_keepsLists (tag : Word) (s : State) : KeepsLists s (cancelTag tag s) :=
  .of_sublist (.refl _) List.filter_sublist (.refl _) le_rfl le_rfl

theorem routeClearExecution_keepsLists (f : RouteClearFields) : (routeClearExecution f).KeepsLists := by
  refine whole_keepsLists fun s => ?_
  split
  · dsimp only
    split
    · exact (purge_keepsLists _ _).after_same rfl
    · exact .of_lists rfl
  · exact rejected_keepsLists _ s

theorem changeRouteState_keepsLists (target : RouteState) (source : Half) (s : State) :
    KeepsLists s (changeRouteState target source s).1 := by
  unfold changeRouteState
  split
  · dsimp only
    split
    · exact rejected_keepsLists _ s
    · exact .of_lists rfl
  · exact rejected_keepsLists _ s

theorem lineInExecution_keepsLists (f : LineInFields) : (lineInExecution f).KeepsLists := by
  refine whole_keepsLists fun s => ?_
  split
  · exact .of_lists rfl
  · exact rejected_keepsLists _ s

theorem lineOutExecution_keepsLists (f : LineOutFields) : (lineOutExecution f).KeepsLists := by
  refine whole_keepsLists fun s => ?_
  split
  · exact .of_lists rfl
  · exact rejected_keepsLists _ s

theorem outputSetExecution_keepsLists (f : OutputSetFields) : (outputSetExecution f).KeepsLists := by
  refine whole_keepsLists fun s => ?_
  split
  · dsimp only
    split
    · split
      · exact .of_lists rfl
      · exact rejected_keepsLists _ s
    · exact .refl s
  · exact rejected_keepsLists _ s

theorem scheduleExecution_keepsLists (f : ScheduleFields) : (scheduleExecution f).KeepsLists := by
  refine whole_keepsLists fun s => ?_
  split
  · exact rejected_keepsLists _ s
  · split
    · exact (offerEvent_keepsLists _ s).trans (schedule_keepsLists f.eventTag _)
    · exact .refl s
    · exact .refl s

theorem timeSetExecution_keepsLists (time : Quad) : (timeSetExecution time).KeepsLists := by
  refine whole_keepsLists fun s => ?_
  split
  · split
    · exact KeepsLists.ite (fun _ => .of_lists rfl) fun _ => .of_lists rfl
    · exact .refl s
  · exact rejected_keepsLists _ s

theorem linkOpenExecution_keepsLists (tag : Word) (f : LinkOpenFields) : (linkOpenExecution tag f).KeepsLists := by
  refine whole_keepsLists fun s => ?_
  split
  · split <;> exact .of_lists rfl
  · exact rejected_keepsLists _ s

theorem linkCloseExecution_keepsLists : linkCloseExecution.KeepsLists :=
  whole_keepsLists fun s => .ite (fun _ => .refl s) fun _ => enterClosed_keepsLists _ _ s

theorem quiesceExecution_keepsLists (tag deadline : Word) : (quiesceExecution tag deadline).KeepsLists := by
  refine whole_keepsLists fun s => ?_
  split
  · exact rejected_keepsLists _ s
  · split
    · exact .refl s
    · exact (settle_books _).keepsLists.after_same rfl

theorem openExecution_keepsLists : openExecution.KeepsLists :=
  whole_keepsLists fun _ => (finishQuiesce_books _ _).keepsLists.after_same rfl

theorem statsReadExecution_keepsLists (tag : Word) (f : StatsReadFields) : (statsReadExecution tag f).KeepsLists := by
  refine whole_keepsLists fun s => ?_
  split
  · split
    · exact .refl s
    · exact .of_lists rfl
  · exact rejected_keepsLists _ s

theorem faultsExecution_keepsLists (f : FaultsFields) : (faultsExecution f).KeepsLists := by
  refine whole_keepsLists fun s => ?_
  split
  · exact .of_lists rfl
  · exact rejected_keepsLists _ s

theorem fenceExecution_keepsLists (tag : Word) : (fenceExecution tag).KeepsLists := by
  refine whole_keepsLists fun s => ?_
  split
  · exact .refl s
  · exact (settle_books _).keepsLists.after_same rfl

/-- Every command keeps capacities and order, whatever falls inside its execution. -/
theorem executionOf_keepsLists (tag : Word) (c : Command) : (executionOf tag c).KeepsLists := by
  cases c with
  | unknown kind => exact whole_keepsLists (rejected_keepsLists _)
  | routeSet f => exact routeSetExecution_keepsLists tag f
  | routeClear f => exact routeClearExecution_keepsLists f
  | routeSuspend source => exact whole_keepsLists (changeRouteState_keepsLists _ source)
  | routeResume source => exact whole_keepsLists (changeRouteState_keepsLists _ source)
  | lineInConfig f => exact lineInExecution_keepsLists f
  | lineOutConfig f => exact lineOutExecution_keepsLists f
  | outputSet f => exact outputSetExecution_keepsLists f
  | schedule f => exact scheduleExecution_keepsLists f
  | cancel eventTag => exact whole_keepsLists fun s => cancelTag_keepsLists eventTag s
  | refresh lines => exact refreshExecution_keepsLists tag lines
  | timeRead => exact whole_keepsLists fun s => .refl s
  | timeSet time => exact timeSetExecution_keepsLists time
  | linkOpen f => exact linkOpenExecution_keepsLists tag f
  | linkClose => exact linkCloseExecution_keepsLists
  | quiesce deadline => exact quiesceExecution_keepsLists tag deadline
  | openIntake => exact openExecution_keepsLists
  | statsRead f => exact statsReadExecution_keepsLists tag f
  | faults f => exact faultsExecution_keepsLists f
  | fence => exact fenceExecution_keepsLists tag

theorem abortLeftovers_keepsLists (s : State) : KeepsLists s (abortLeftovers s) :=
  .ite (fun _ => (abortDeferred_books s).keepsLists.trans (closeAtStop_keepsLists _)) fun _ => .refl s

theorem runCommand_keepsLists (falls : Falls) (kind : Byte) (tag : Word) {x : Execution} (hx : x.KeepsLists)
    (s : State) : KeepsLists s (runCommand falls kind tag x s) := by
  refine .ite (fun _ => ?_) fun _ => .refl s
  have executed := (takeCommand_books s).keepsLists.trans (hx falls (takeCommand s))
  exact ((executed.trans (answerCommand_books _ _ _ _).keepsLists).trans (abortLeftovers_keepsLists _)).trans
    (commandFetch_books _).keepsLists

theorem goOnOffering_keepsLists (pause : Option Nat) (w : OfferSet) (s : State) :
    KeepsLists s (goOnOffering pause w s) := by
  refine KeepsLists.trans ?_ ((answerCommand_books _ _ _ _).trans (commandFetch_books _)).keepsLists
  split
  · exact (makeOffers_keepsLists w _ _).after_same rfl
  · exact .of_lists rfl
  · exact .refl s
  · exact .refl s
  · exact .refl s

theorem runOffering_keepsLists (pause : Option Nat) (tag : Word) (c : Command) {x : Execution} (hx : x.KeepsLists)
    (s : State) : KeepsLists s (runOffering pause tag c x s) := by
  unfold runOffering
  split
  · exact runCommand_keepsLists _ _ tag hx s
  · exact .ite (fun _ => goOnOffering_keepsLists pause _ s) fun _ => .refl s

theorem stopPart_keepsLists (during : Option Overtaken) (late : List LateOffer) (s : State) :
    KeepsLists s (stopPart during late s) := by
  refine .ite (fun _ => ?_) fun _ => .refl s
  cases during with
  | none => exact enterStopping_keepsLists late s
  | some o =>
    exact .ite (fun _ => runCommand_keepsLists _ _ _ (executionOf_keepsLists _ _) s)
      fun _ => enterStopping_keepsLists late s

theorem executedSoFar_keepsLists (o : Overtaken) (s : State) : KeepsLists s (executedSoFar o s) := by
  have executed := (takeCommand_books s).keepsLists.trans
    (executionOf_keepsLists o.tag o.command (.others o.requests) (takeCommand s))
  unfold executedSoFar
  dsimp only
  split
  · exact executed.trans (.of_lists rfl)
  · exact executed
  · exact executed

theorem haltPart_keepsLists (during : Option Overtaken) (late : List LateOffer) (indexed : Bool) (s : State) :
    KeepsLists s (haltPart during late indexed s) := by
  cases during with
  | none => exact enterHalted_keepsLists late s
  | some o =>
    refine .ite (fun _ => KeepsLists.trans (.ite (fun _ => ?_) fun _ => ?_) (enterHalted_keepsLists late _))
      fun _ => enterHalted_keepsLists late s
    · exact (executedSoFar_keepsLists o s).trans (commandIndexWritten_books _).keepsLists
    · exact executedSoFar_keepsLists o s

theorem busMasterError_keepsLists (during : Option Overtaken) (late : List LateOffer) (indexed : Bool) (s : State) :
    KeepsLists s (busMasterError during late indexed s) := by
  unfold busMasterError
  split
  · exact .of_lists rfl
  · exact haltPart_keepsLists during late indexed s
  · exact haltPart_keepsLists during late indexed s
  · exact .refl s
  · exact .refl s

/-! #### The register window and STATS_READ -/

theorem control_keepsLists (word : Word) (s : State) : KeepsLists s (control word s) :=
  .ite (fun _ => deviceReset_keepsLists s) fun _ => .ite (fun _ => startPart_keepsLists s) fun _ =>
    .ite (fun _ => stopPart_keepsLists none [] s) fun _ => .refl s

theorem registerWrite_keepsLists (offset count : Nat) (word : Word) (s : State) :
    KeepsLists s (registerWrite offset count word s) := by
  refine .ite (fun _ => .refl s) fun _ => ?_
  split
  · exact control_keepsLists word s
  · exact .of_lists rfl
  · exact .of_lists rfl
  · exact (submit_books word s).keepsLists
  · exact (release_books word s).keepsLists
  · exact (writeCause_books word s).keepsLists
  · exact (writeEnable_books word s).keepsLists
  · exact .refl s

/-- R188: the clear flag empties counters and no list. -/
theorem clearIn_keepsLists (item : StatsItem) (s : State) : KeepsLists s (item.clearIn s) := by
  cases item with
  | globalCounter k =>
    simp only [StatsItem.clearIn, clearGlobal]
    split <;> exact .of_lists rfl
  | _ => exact .of_lists rfl

theorem statsItemRead_keepsLists (board : BitVec 16) (s : State) : KeepsLists s (statsItemRead board s) := by
  unfold statsItemRead
  split
  · split
    · exact .refl s
    · exact .ite (fun _ => (clearIn_keepsLists _ _).after_same rfl) fun _ => .of_lists rfl
  · exact .refl s

/-! #### Every step -/

/-- R101: a frame with a sender session of 0 is counted, and any other is taken. -/
theorem intact_keepsLists {sender : Half} {f : State → State} (hf : ∀ s, KeepsLists s (f s)) (s : State) :
    KeepsLists s (if sender = 0 then countMalformed s else f s) := .ite (fun _ => .of_lists rfl) fun _ => hf s

/-- R147: what the row of a command does: nothing, or the command is taken, or, where it makes several offers, it is
taken or goes on. -/
theorem exec_takeUpTo (pause : Option Nat) (tag : Word) (c : Command) (s : State) :
    ∃ t, exec (takeUpTo pause tag c) s = .next t
      ∧ (t = s ∨ (∃ kind, t = runCommand .nothing kind tag (executionOf tag c) s)
        ∨ ∃ p, t = runOffering p tag c (executionOf tag c) s) := by
  cases c with
  | unknown kind =>
    by_cases hk : 1 ≤ kind.toNat ∧ kind.toNat ≤ 19
    · exact ⟨s, congrArg Host.Outcome.next (if_pos hk), .inl rfl⟩
    · exact ⟨_, congrArg Host.Outcome.next (if_neg hk), .inr (.inl ⟨kind, rfl⟩)⟩
  | routeSet f => exact ⟨_, rfl, .inr (.inr ⟨_, rfl⟩)⟩
  | refresh lines => exact ⟨_, rfl, .inr (.inr ⟨_, rfl⟩)⟩
  | _ => exact ⟨_, rfl, .inr (.inl ⟨_, rfl⟩)⟩

theorem exec_takeUpTo_keepsLists (pause : Option Nat) (tag : Word) (c : Command) (s : State) :
    ∃ t, exec (takeUpTo pause tag c) s = .next t ∧ KeepsLists s t := by
  obtain ⟨t, ht, hcases⟩ := exec_takeUpTo pause tag c s
  refine ⟨t, ht, ?_⟩
  rcases hcases with rfl | ⟨kind, rfl⟩ | ⟨p, rfl⟩
  · exact .refl t
  · exact runCommand_keepsLists _ _ tag (executionOf_keepsLists tag c) s
  · exact runOffering_keepsLists _ tag c (executionOf_keepsLists tag c) s

/-- R5, R35, R37, R55, R120: every meaning keeps the capacities and the order. -/
theorem exec_keepsLists (c : Instr) (s : State) : ∃ t, exec c s = .next t ∧ KeepsLists s t := by
  cases c with
  | start => exact ⟨_, rfl, startPart_keepsLists s⟩
  | stop during late => exact ⟨_, rfl, stopPart_keepsLists during late s⟩
  | reset => exact ⟨_, rfl, deviceReset_keepsLists s⟩
  | resetNAssert => exact ⟨_, rfl, (deviceReset_keepsLists s).trans (.of_lists rfl)⟩
  | resetNRelease => exact ⟨_, rfl, .of_lists rfl⟩
  | functionReset => exact ⟨_, rfl, deviceReset_keepsLists s⟩
  | setupReadDone block => exact ⟨_, rfl, setupReadDone_keepsLists block s⟩
  | statusBlockInitDone => exact ⟨_, rfl, statusBlockInitDone_keepsLists s⟩
  | stoppingEnd => exact ⟨_, rfl, stoppingEnd_keepsLists s⟩
  | busMasterError during late indexed => exact ⟨_, rfl, busMasterError_keepsLists during late indexed s⟩
  | submit word => exact ⟨_, rfl, (submit_books word s).keepsLists⟩
  | release word => exact ⟨_, rfl, (release_books word s).keepsLists⟩
  | intCause word => exact ⟨_, rfl, (writeCause_books word s).keepsLists⟩
  | intEnable word => exact ⟨_, rfl, (writeEnable_books word s).keepsLists⟩
  | registerWrite offset count word => exact ⟨_, rfl, registerWrite_keepsLists offset count word s⟩
  | unknownCommand tag kind => exact exec_takeUpTo_keepsLists none tag (.unknown kind) s
  | routeSet tag f pause => exact exec_takeUpTo_keepsLists pause tag (.routeSet f) s
  | routeClear tag f => exact exec_takeUpTo_keepsLists none tag (.routeClear f) s
  | routeSuspend tag source => exact exec_takeUpTo_keepsLists none tag (.routeSuspend source) s
  | routeResume tag source => exact exec_takeUpTo_keepsLists none tag (.routeResume source) s
  | lineInConfig tag f => exact exec_takeUpTo_keepsLists none tag (.lineInConfig f) s
  | lineOutConfig tag f => exact exec_takeUpTo_keepsLists none tag (.lineOutConfig f) s
  | outputSet tag f => exact exec_takeUpTo_keepsLists none tag (.outputSet f) s
  | schedule tag f => exact exec_takeUpTo_keepsLists none tag (.schedule f) s
  | cancel tag eventTag => exact exec_takeUpTo_keepsLists none tag (.cancel eventTag) s
  | refresh tag lines pause => exact exec_takeUpTo_keepsLists pause tag (.refresh lines) s
  | timeRead tag => exact exec_takeUpTo_keepsLists none tag .timeRead s
  | timeSet tag time => exact exec_takeUpTo_keepsLists none tag (.timeSet time) s
  | linkOpen tag f => exact exec_takeUpTo_keepsLists none tag (.linkOpen f) s
  | linkClose tag => exact exec_takeUpTo_keepsLists none tag .linkClose s
  | quiesce tag deadline => exact exec_takeUpTo_keepsLists none tag (.quiesce deadline) s
  | openIntake tag => exact exec_takeUpTo_keepsLists none tag .openIntake s
  | statsRead tag f => exact exec_takeUpTo_keepsLists none tag (.statsRead f) s
  | faults tag f => exact exec_takeUpTo_keepsLists none tag (.faults f) s
  | fence tag => exact exec_takeUpTo_keepsLists none tag .fence s
  | quiesceDeadline => exact ⟨_, rfl, (quiesceDeadline_books s).keepsLists⟩
  | statsItemRead board => exact ⟨_, rfl, statsItemRead_keepsLists board s⟩
  | statsReadDone => exact ⟨_, rfl, (statsReadDone_books s).keepsLists⟩
  | routerTake pause => exact ⟨_, rfl, routerTake_keepsLists pause s⟩
  | holdRelease => exact ⟨_, rfl, holdRelease_keepsLists s⟩
  | handoverTake => exact ⟨_, rfl, handoverTake_keepsLists s⟩
  | applicationRequest line => exact ⟨_, rfl, applicationRequest_keepsLists line s⟩
  | pulseEnd line => exact ⟨_, rfl, .of_lists rfl⟩
  | eventRecordTake poster => exact ⟨_, rfl, eventRecordTake_keepsLists poster s⟩
  | recordWriteDone target => exact ⟨_, rfl, (recordWriteDone_books target s).keepsLists⟩
  | rawChange line level => exact ⟨_, rfl, rawChange_keepsLists line level s⟩
  | filterAccept line => exact ⟨_, rfl, filterAccept_keepsLists line s⟩
  | spacingEnd line => exact ⟨_, rfl, spacingEnd_keepsLists line s⟩
  | faultRaise index => exact ⟨_, rfl, (faultRaise_books index s).keepsLists⟩
  | crcError => exact ⟨_, rfl, (crcError_books s).keepsLists⟩
  | frameMalformed => exact ⟨_, rfl, receive_keepsLists (f := countMalformed) (fun _ => .of_lists rfl) s⟩
  | rxHello sender seen => exact ⟨_, rfl, receive_keepsLists (intact_keepsLists (takeHello_keepsLists sender seen)) s⟩
  | rxClose sender => exact ⟨_, rfl, receive_keepsLists (intact_keepsLists (takeClose_keepsLists sender)) s⟩
  | rxIdle sender => exact ⟨_, rfl, receive_keepsLists (intact_keepsLists (f := fun s => s) .refl) s⟩
  | rxEvent f => exact ⟨_, rfl, receive_keepsLists (takeEvent_keepsLists f) s⟩
  | rxAck next => exact ⟨_, rfl, receive_keepsLists (takeAck_keepsLists next) s⟩
  | rxProbe number t1 => exact ⟨_, rfl, receive_keepsLists (fun s => (takeProbe_books number t1 s).keepsLists) s⟩
  | rxEcho number t1 t2 t3 part => exact ⟨_, rfl, rxEcho_keepsLists number t1 t2 t3 part s⟩
  | frameTransmit => exact ⟨_, rfl, frameTransmit_keepsLists s⟩
  | frameSent => exact ⟨_, rfl, (frameSent_books s).keepsLists⟩
  | helloTimer => exact ⟨_, rfl, (helloTimer_books s).keepsLists⟩
  | openTimeout => exact ⟨_, rfl, openTimeout_keepsLists s⟩
  | keepalive => exact ⟨_, rfl, (keepalive_books s).keepsLists⟩
  | silenceTimeout => exact ⟨_, rfl, silenceTimeout_keepsLists s⟩
  | probeAttemptEnd => exact ⟨_, rfl, probeAttemptEnd_keepsLists s⟩
  | probeTimer => exact ⟨_, rfl, (probeTimer_books s).keepsLists⟩
  | ackTimeout => exact ⟨_, rfl, ackTimeout_keepsLists s⟩
  | stalenessTimeout => exact ⟨_, rfl, (stalenessTimeout_books s).keepsLists⟩
  | tick => exact ⟨_, rfl, (tick_books s).keepsLists⟩

/-- The step of the machine keeps the capacities and the order. -/
theorem step_keepsLists {s t : State} (h : step s = .next t) : KeepsLists s t := by
  unfold step at h
  split at h
  · cases h
    exact .refl _
  · rename_i c rest _
    obtain ⟨u, hu, hk⟩ := exec_keepsLists c { s with pending := rest }
    rw [hu] at h
    cases h
    exact hk.after_same rfl

/-- Settles O4: every meaning keeps the lists (`exec_keepsLists`), by the few operations that put an entry in. -/
theorem stepKeepsCapacitiesAndOrder : Obligations.StepKeepsCapacitiesAndOrder :=
  ⟨fun _ _ hs h => (step_keepsLists h).capacity hs, fun _ _ hs h => (step_keepsLists h).ordered hs⟩

/-! ### Quiet outside RUNNING (R5, R12, R37, R53, R72, R96, R103)

`KeepsQuiet s t`: where the part is quiet in `s`, it is in the same part state in `t`, and quiet. What makes an
operation keep the part quiet is nearly always that it acts in RUNNING alone: an accepted offer needs an OPEN intake,
and a candidate, a spacing window and a session that is not CLOSED stand in RUNNING. -/

def KeepsQuiet (s t : State) : Prop := s.QuietOutsideRunning → t.part = s.part ∧ t.QuietOutsideRunning

theorem KeepsQuiet.refl (s : State) : KeepsQuiet s s := fun q => ⟨rfl, q⟩

theorem KeepsQuiet.trans {s t u : State} (h : KeepsQuiet s t) (k : KeepsQuiet t u) : KeepsQuiet s u := fun q =>
  ⟨(k (h q).2).1.trans (h q).1, (k (h q).2).2⟩

theorem KeepsQuiet.ite {s t u : State} {c : Prop} [Decidable c] (ht : c → KeepsQuiet s t) (hu : ¬ c → KeepsQuiet s u) :
    KeepsQuiet s (if c then t else u) := by
  split
  · exact ht ‹_›
  · exact hu ‹_›

theorem KeepsBooksOnly.keepsQuiet {s t : State} (h : KeepsBooksOnly s t) : KeepsQuiet s t := by
  simp only [KeepsBooksOnly, State.stores, Stores.mk.injEq] at h
  obtain ⟨hp, hopen, hi, ha, hd, hh, hold, -, hv, hin, hout, hs, -, -⟩ := h
  refine fun q => ⟨hp, ?_, ?_, ?_, ?_, ?_, ?_⟩
  · rw [hp, hopen, hi, hold]; exact q.intake
  · rw [hp, hd, hh, ha]; exact q.decision
  · rw [hp, hv]; exact q.delivery
  · rw [hp, hin]; exact q.inputs
  · rw [hp, hout]; exact q.outputs
  · rw [hp, hs]; exact q.session

/-- An operation that keeps the part quiet, after one that only keeps books. -/
theorem KeepsQuiet.after_books {s t u : State} (k : KeepsQuiet t u) (h : KeepsBooksOnly s t) : KeepsQuiet s u :=
  h.keepsQuiet.trans k

/-- In RUNNING only the input lines are spoken of. -/
theorem quiet_of_running {s : State} (hrun : s.part = .running) (hin : ∀ n : Fin 16, s.inputs[n].Watched .running) :
    s.QuietOutsideRunning where
  intake h := absurd hrun h
  decision h := absurd hrun h
  delivery h := absurd hrun h
  inputs := hrun.symm ▸ hin
  outputs h := absurd hrun h
  session h := absurd hrun h

/-- What leaves the input lines alone in RUNNING keeps the part quiet. -/
theorem KeepsQuiet.of_running {s t : State} (hrun : s.part = .running) (part : t.part = s.part)
    (inputs : t.inputs = s.inputs) : KeepsQuiet s t := fun q =>
  ⟨part, quiet_of_running (part.trans hrun) (by rw [inputs, ← hrun]; exact q.inputs)⟩

/-- R103: a session that is not CLOSED stands in RUNNING. -/
theorem KeepsQuiet.of_session {s t : State} (h : s.link.session ≠ .closed) (k : s.part = .running → KeepsQuiet s t) :
    KeepsQuiet s t := fun q => k (by_contra fun hp => h (q.session hp)) q

/-- R72, R77: a line that watches an edge stands in RUNNING, with a mode other than OFF. -/
theorem KeepsQuiet.of_watching {n : Fin 16} {s t : State}
    (h : s.inputs[n].candidate ≠ none ∨ s.inputs[n].spacingEnd ≠ none ∨ s.inputs[n].suppressed = true)
    (k : s.part = .running → s.inputs[n].config.mode ≠ .off → KeepsQuiet s t) : KeepsQuiet s t := fun q =>
  k (q.inputs n h).1 (q.inputs n h).2 q

/-! #### Lines -/

/-- R71: a line with its capture state reset has nothing to watch. -/
theorem resetCapture_watched (p : PartState) (l : InputLine) : l.resetCapture.Watched p := by
  rintro (h | h | h)
  · exact absurd rfl h
  · exact absurd rfl h
  · cases h

/-- R70: in RUNNING, with a mode other than OFF, a line may watch an edge. -/
theorem watched_of_mode {p : PartState} {l : InputLine} (hp : p = .running) (hm : l.config.mode ≠ .off) : l.Watched p :=
  fun _ => ⟨hp, hm⟩

theorem setInput_keepsQuiet {n : Fin 16} {l : InputLine} {s : State}
    (hl : s.inputs[n].Watched s.part → l.Watched s.part) : KeepsQuiet s (setInput n l s) := by
  refine fun q => ⟨rfl, q.intake, q.decision, q.delivery, fun m => ?_, q.outputs, q.session⟩
  have hset : (setInput n l s).inputs[m] = if n = m then l else s.inputs[m] := by
    simp [setInput, Vector.getElem_set, Fin.ext_iff]
  rw [hset]
  split
  · exact hl (q.inputs n)
  · exact q.inputs m

theorem setOutput_keepsQuiet {n : Fin 16} {o : OutputLine} {s : State}
    (ho : s.part ≠ .running → s.outputs[n].pulse = none → o.pulse = none) : KeepsQuiet s (setOutput n o s) := by
  refine fun q => ⟨rfl, q.intake, q.decision, q.delivery, q.inputs, fun hp m => ?_, q.session⟩
  have hset : (setOutput n o s).outputs[m] = if n = m then o else s.outputs[m] := by
    simp [setOutput, Vector.getElem_set, Fin.ext_iff]
  rw [hset]
  split
  · exact ho hp (q.outputs hp n)
  · exact q.outputs hp m

/-- R6, R12: an offer is accepted in RUNNING alone, where the intake may be OPEN. -/
theorem offerEvent_keepsQuiet (e : Event) (s : State) : KeepsQuiet s (offerEvent e s) := by
  rw [offerEvent_eq]
  refine fun q => ⟨rfl, fun hp => ?_, q.decision, q.delivery, q.inputs, q.outputs, q.session⟩
  have hclosed := (q.intake hp).1
  rw [offerEvent_intake, if_neg (by simp [offerAnswer_accepted_iff, hclosed])]
  exact q.intake hp

theorem offerEvent_part (e : Event) (s : State) : (offerEvent e s).part = s.part := by rw [offerEvent_eq]

theorem offerEvent_inputs (e : Event) (s : State) : (offerEvent e s).inputs = s.inputs := by rw [offerEvent_eq]

theorem loseToFull_keepsQuiet {n : Fin 16} {l : InputLine} {s : State}
    (hl : s.inputs[n].Watched s.part → l.Watched s.part) : KeepsQuiet s (loseToFull n l s) :=
  KeepsQuiet.trans (t := setInput n { l with counters := { l.counters with lost := bump l.counters.lost } } s)
    (setInput_keepsQuiet hl) (KeepsBooksOnly.keepsQuiet rfl)

theorem loseToClosed_keepsQuiet {n : Fin 16} {l : InputLine} {s : State}
    (hl : s.inputs[n].Watched s.part → l.Watched s.part) : KeepsQuiet s (loseToClosed n l s) :=
  setInput_keepsQuiet hl

theorem offerEdge_keepsQuiet {n : Fin 16} {l : InputLine} {e : Event} {level : Level} {window : Option Nat} {s : State}
    (hp : s.part = .running) (hm : l.config.mode ≠ .off) : KeepsQuiet s (offerEdge n l e level window s) := by
  unfold offerEdge
  split
  · exact (offerEvent_keepsQuiet e s).trans
      (setInput_keepsQuiet fun _ => watched_of_mode ((offerEvent_part e s).trans hp) hm)
  · exact loseToFull_keepsQuiet fun _ => watched_of_mode hp hm
  · exact loseToClosed_keepsQuiet fun _ => watched_of_mode hp hm

theorem acceptChange_keepsQuiet {n : Fin 16} {l : InputLine} {stamp : Nat} {s : State} (hp : s.part = .running)
    (hm : l.config.mode ≠ .off) : KeepsQuiet s (acceptChange n l stamp s) := by
  refine .ite (fun _ => .ite (fun _ => ?_) fun _ => ?_) fun _ => ?_
  · exact setInput_keepsQuiet fun _ => watched_of_mode hp hm
  · apply offerEdge_keepsQuiet hp; exact hm
  · exact setInput_keepsQuiet fun _ => watched_of_mode hp hm

/-- R72: a line that filters does so in RUNNING with a mode other than OFF. -/
theorem rawChange_keepsQuiet (n : Fin 16) (level : Level) (s : State) : KeepsQuiet s (rawChange n level s) := by
  refine .ite (fun _ => .refl s) fun _ => .ite (fun hf => ?_) fun _ =>
    setInput_keepsQuiet fun _ => resetCapture_watched _ _
  obtain ⟨hp, hm⟩ : s.part = .running ∧ s.inputs[n].config.mode ≠ .off := by simpa [filters] using hf
  split
  · exact setInput_keepsQuiet fun _ => watched_of_mode hp hm
  · refine .ite (fun _ => ?_) fun _ => ?_
    · apply acceptChange_keepsQuiet hp; exact hm
    · exact setInput_keepsQuiet fun _ => watched_of_mode hp hm

theorem filterAccept_keepsQuiet (n : Fin 16) (s : State) : KeepsQuiet s (filterAccept n s) := by
  unfold filterAccept
  dsimp only
  split
  · exact .refl s
  · rename_i start hc
    refine .of_watching (n := n) (.inl (Option.ne_none_iff_exists'.2 ⟨_, hc⟩)) fun hp hm => ?_
    exact .ite (fun _ => acceptChange_keepsQuiet hp hm) fun _ => .refl s

theorem spacingEnd_keepsQuiet (n : Fin 16) (s : State) : KeepsQuiet s (spacingEnd n s) := by
  unfold spacingEnd
  dsimp only
  split
  · exact .refl s
  · rename_i t ht
    refine .of_watching (n := n) (.inr (.inl (Option.ne_none_iff_exists'.2 ⟨_, ht⟩))) fun hp hm => ?_
    refine .ite (fun _ => ?_) fun _ => .refl s
    split
    · exact setInput_keepsQuiet fun _ => watched_of_mode hp hm
    · apply offerEdge_keepsQuiet hp; exact hm

theorem offerState_keepsQuiet (n : Fin 16) (s : State) : KeepsQuiet s (offerState n s) := by
  unfold offerState
  dsimp only
  split
  · refine (offerEvent_keepsQuiet _ s).trans (setInput_keepsQuiet fun h => ?_)
    rw [offerEvent_inputs] at h
    exact h
  · exact .refl s
  · exact .refl s

theorem announceLine_keepsQuiet (n : Fin 16) (s : State) : KeepsQuiet s (announceLine n s) := by
  refine .ite (fun _ => .refl s) fun _ => ?_
  split
  · exact offerState_keepsQuiet n s
  · exact loseToFull_keepsQuiet id
  · exact loseToClosed_keepsQuiet id

/-- R79, R81: an announce is under way in RUNNING alone. -/
theorem announceNext_keepsQuiet (k : Nat) (s : State) : KeepsQuiet s (announceNext k s) := by
  induction k generalizing s with
  | zero => exact .refl s
  | succ k ih =>
    simp only [announceNext]
    split
    · exact .refl s
    · rename_i n rest ha
      have turn : KeepsQuiet s { s with announcing := rest } := by
        refine fun q => KeepsQuiet.of_running ?_ rfl rfl q
        by_contra hp
        simp [(q.decision hp).2.2] at ha
      exact (turn.trans (announceLine_keepsQuiet _ _)).trans (ih _)

theorem announce_keepsQuiet {s : State} (hp : s.part = .running) (pause : Option Nat) :
    KeepsQuiet s (announce pause s) :=
  KeepsQuiet.trans (t := { s with announcing := s.announcing ++ announcingLines s }) (.of_running hp rfl rfl)
    (announceNext_keepsQuiet _ _)

/-! #### The Router and the Release Unit -/

theorem OnlyDecisionFields.keepsQuiet {s t : State} (h : OnlyDecisionFields s t) (hp : s.part = .running) :
    KeepsQuiet s t := by
  unfold OnlyDecisionFields at h
  rw [h]
  exact .of_running hp rfl rfl

theorem routerTake_keepsQuiet (pause : Option DecisionStage) (s : State) : KeepsQuiet s (routerTake pause s) := by
  refine .ite (fun h => ?_) fun _ => .refl s
  split
  · refine KeepsQuiet.trans ?_ (settle_books _).keepsQuiet
    refine KeepsQuiet.trans (t := { s with deciding := none }) (.of_running h.1 rfl rfl) ?_
    exact (resumeDecision_only _ _ _).keepsQuiet h.1
  · exact .refl s
  · rename_i e rest _ _
    refine KeepsQuiet.trans ?_ (settle_books _).keepsQuiet
    refine KeepsQuiet.trans (t := { s with intake := rest }) (.of_running h.1 rfl rfl) ?_
    exact (decideEvent_only _ _ _).keepsQuiet h.1

theorem holdRelease_keepsQuiet (s : State) : KeepsQuiet s (holdRelease s) := by
  refine .ite (fun h => ?_) fun _ => .refl s
  split
  · exact .refl s
  · exact .ite (fun _ => .of_running h.1 rfl rfl) fun _ => .refl s

theorem handoverTake_keepsQuiet (s : State) : KeepsQuiet s (handoverTake s) := by
  refine .ite (fun h => ?_) fun _ => .refl s
  split
  · exact .refl s
  · exact .of_running h.1 rfl rfl

/-- R44: a delivery that goes on is in progress in RUNNING or STOPPING. -/
theorem delivery_keepsQuiet {s : State} {d : Delivery} (hd : s.delivery = some d) (left : Option Delivery) :
    KeepsQuiet s { s with delivery := left } := fun q =>
  ⟨rfl, q.intake, q.decision, fun hr hs => by simp [q.delivery hr hs] at hd, q.inputs, q.outputs, q.session⟩

/-- R88: outside RUNNING a request is blocked. -/
theorem request_pulse_blocked (kind : EventKind) (start : Int) (now : Nat) (o : OutputLine) :
    (o.request kind start now false).pulse = o.pulse := by
  unfold OutputLine.request
  split <;> rfl

theorem applicationRequest_keepsQuiet (line : Fin 16) (s : State) : KeepsQuiet s (applicationRequest line s) := by
  unfold applicationRequest
  split
  · exact .refl s
  · rename_i d hd
    refine .ite (fun _ => ?_) fun _ => .refl s
    refine KeepsQuiet.trans ?_ (settle_books _).keepsQuiet
    refine (delivery_keepsQuiet hd _).trans (setOutput_keepsQuiet fun hp ho => ?_)
    have hblocked : (s.part == PartState.running) = false := by simpa using hp
    rw [hblocked, request_pulse_blocked]
    exact ho

theorem expire_pulse_none {o : OutputLine} (h : o.pulse = none) (now : Nat) : (o.expire now).pulse = none := by
  unfold OutputLine.expire
  rw [h]
  exact h

theorem eventRecordTake_keepsQuiet (poster : Poster) (s : State) : KeepsQuiet s (eventRecordTake poster s) := by
  refine .ite (fun _ => ?_) fun _ => .refl s
  cases poster with
  | release ring =>
    dsimp only
    split
    · exact .refl s
    · rename_i d hd
      refine .ite (fun _ => ?_) fun _ => .refl s
      refine KeepsQuiet.trans ?_ ((takeRecord_books _ _ _).trans (settle_books _)).keepsQuiet
      exact delivery_keepsQuiet hd _
  | faultUnit =>
    dsimp only
    split
    · exact (takeRecord_books _ _ _).keepsQuiet.after_books rfl
    · exact .refl s
  | linkController =>
    dsimp only
    split
    · exact (takeRecord_books _ _ _).keepsQuiet.after_books rfl
    · exact .refl s

/-! #### The link -/

/-- R103: a change of the link outside RUNNING leaves the session CLOSED. -/
theorem onLink_keepsQuiet {f : Link → Link} {s : State}
    (hf : s.link.session = .closed → (f s.link).session = .closed) : KeepsQuiet s (onLink f s) := fun q =>
  ⟨rfl, q.intake, q.decision, q.delivery, q.inputs, q.outputs, fun hp => hf (q.session hp)⟩

theorem enterFailed_keepsQuiet {s : State} (h : s.link.session ≠ .closed) (r : Reason) :
    KeepsQuiet s (enterFailed r s) := by
  refine .of_session h fun hp => ?_
  rw [enterFailed_eq]
  exact .of_running hp rfl rfl

theorem enterClosed_session (r : Reason) (sendClose : Bool) (s : State) :
    (enterClosed r sendClose s).link.session = .closed := by
  rw [enterClosed_transition]
  exact Link.ended_session _ _ _ _

theorem enterClosed_keepsQuiet (r : Reason) (sendClose : Bool) (s : State) :
    KeepsQuiet s (enterClosed r sendClose s) := by
  have hs := enterClosed_session r sendClose s
  rw [enterClosed_eq]
  exact fun q => ⟨rfl, q.intake, q.decision, q.delivery, q.inputs, q.outputs, fun _ => hs⟩

theorem enterUp_keepsQuiet {s : State} (h : s.link.session ≠ .closed) (pause : Option Nat) :
    KeepsQuiet s (enterUp pause s) := by
  refine .of_session h fun hp => ?_
  have moved : KeepsQuiet s (onLink Link.enterUp s) := .of_running hp rfl rfl
  have noticed := linkNoticed_books .ok (linkNotice (onLink Link.enterUp s)) (onLink Link.enterUp s)
  have hpart : (finishLinkOpen .ok (postLinkNotice (linkNotice (onLink Link.enterUp s)) (onLink Link.enterUp s))).part
      = .running := (congrArg Stores.part noticed).trans hp
  exact (moved.trans noticed.keepsQuiet).trans (announce_keepsQuiet hpart pause)

theorem receive_keepsQuiet {f : State → State} (hf : ∀ s, KeepsQuiet s (f s)) (s : State) :
    KeepsQuiet s (receive f s) :=
  .ite (fun _ => .refl s) fun _ =>
    ((arrived_books s).keepsQuiet.trans (hf _)).trans (settle_books _).keepsQuiet

theorem takeHello_keepsQuiet (sender seen : Half) (s : State) : KeepsQuiet s (takeHello sender seen s) := by
  unfold takeHello
  split
  · exact KeepsBooksOnly.keepsQuiet rfl
  · exact KeepsBooksOnly.keepsQuiet rfl
  · rename_i h
    exact onLink_keepsQuiet fun hc => by simp [h] at hc
  · rename_i h
    exact .ite (fun _ => .refl s) fun _ => enterFailed_keepsQuiet (by simp [h]) _
  · rename_i h
    exact .ite (fun _ => .refl s) fun _ => enterFailed_keepsQuiet (by simp [h]) _

theorem takeClose_keepsQuiet (sender : Half) (s : State) : KeepsQuiet s (takeClose sender s) :=
  .ite (fun _ => enterClosed_keepsQuiet _ _ _) fun _ => KeepsBooksOnly.keepsQuiet rfl

theorem takeExpected_keepsQuiet (f : RxEventFields) (kind : EventKind) (s : State) :
    KeepsQuiet s (takeExpected f kind s) := by
  unfold takeExpected
  split
  · exact (offerEvent_keepsQuiet _ _).after_books rfl
  · exact KeepsBooksOnly.keepsQuiet rfl
  · exact KeepsBooksOnly.keepsQuiet rfl

theorem takeSequence_keepsQuiet (f : RxEventFields) (kind : EventKind) (s : State) :
    KeepsQuiet s (takeSequence f kind s) := by
  unfold takeSequence
  dsimp only
  split
  · exact takeExpected_keepsQuiet f kind s
  · split <;> exact KeepsBooksOnly.keepsQuiet rfl

theorem takeEvent_keepsQuiet (f : RxEventFields) (s : State) : KeepsQuiet s (takeEvent f s) := by
  unfold takeEvent
  split
  · split <;> exact KeepsBooksOnly.keepsQuiet rfl
  · split
    · exact takeSequence_keepsQuiet _ _ _
    · exact KeepsBooksOnly.keepsQuiet rfl

theorem acknowledge_session (d : Nat) (l : Link) : (l.acknowledge d).session = l.session := by
  unfold Link.acknowledge Link.fillWindow
  rw [enterWindow_eq]

theorem takeAck_keepsQuiet (next : Byte) (s : State) : KeepsQuiet s (takeAck next s) := by
  unfold takeAck
  dsimp only
  split
  · split
    · exact .refl s
    · split
      · exact onLink_keepsQuiet fun hc => (acknowledge_session _ _).trans hc
      · exact KeepsBooksOnly.keepsQuiet rfl
  · exact KeepsBooksOnly.keepsQuiet rfl

theorem takeEcho_keepsQuiet (number : Byte) (t1 t2 t3 : Quad) (pause : Option Nat) (s : State) :
    KeepsQuiet s (takeEcho number t1 t2 t3 pause s) := by
  unfold takeEcho
  split
  · split
    · unfold judgeEcho
      dsimp only
      split
      · split
        · rename_i ha
          exact (enterUp_keepsQuiet (by simp [onLink, Link.accept, ha]) pause).after_books rfl
        · exact KeepsBooksOnly.keepsQuiet rfl
      · exact KeepsBooksOnly.keepsQuiet rfl
    · exact KeepsBooksOnly.keepsQuiet rfl
  · exact KeepsBooksOnly.keepsQuiet rfl

theorem rxEcho_keepsQuiet (number : Byte) (t1 t2 t3 : Quad) (part : EchoPart) (s : State) :
    KeepsQuiet s (rxEcho number t1 t2 t3 part s) := by
  cases part with
  | frame pause => exact receive_keepsQuiet (takeEcho_keepsQuiet number t1 t2 t3 pause) s
  | announce pause => exact .ite (fun _ => announceNext_keepsQuiet _ _) fun _ => .refl s

theorem transmit_session (now : Nat) (l : Link) : (l.transmit now).session = l.session := by
  unfold Link.transmit
  repeat' split
  all_goals rfl

theorem frameTransmit_keepsQuiet (s : State) : KeepsQuiet s (frameTransmit s) :=
  .ite (fun _ => onLink_keepsQuiet fun hc => (transmit_session _ _).trans hc) fun _ => .refl s

/-- R107, R109, R112, R125: a timer that fails the session runs in a call. -/
theorem sessionFails_keepsQuiet {s : State} (h : s.link.session ≠ .closed) (r : Reason) :
    KeepsQuiet s (settle (enterFailed r s)) := (enterFailed_keepsQuiet h r).trans (settle_books _).keepsQuiet

theorem openTimeout_keepsQuiet (s : State) : KeepsQuiet s (openTimeout s) :=
  .ite (fun h => sessionFails_keepsQuiet (by simp [h.1]) _) fun _ => .refl s

theorem silenceTimeout_keepsQuiet (s : State) : KeepsQuiet s (silenceTimeout s) :=
  .ite (fun h => sessionFails_keepsQuiet (by rcases h.1 with h | h <;> simp [h]) _) fun _ => .refl s

theorem probeAttemptEnd_keepsQuiet (s : State) : KeepsQuiet s (probeAttemptEnd s) :=
  .ite (fun h => .ite (fun _ => KeepsBooksOnly.keepsQuiet rfl) fun _ => sessionFails_keepsQuiet (by simp [h.1]) _)
    fun _ => .refl s

theorem ackTimeout_keepsQuiet (s : State) : KeepsQuiet s (ackTimeout s) := by
  refine .ite (fun h => ?_) fun _ => .refl s
  split
  · exact .refl s
  · exact .ite (fun _ => onLink_keepsQuiet id) fun _ => sessionFails_keepsQuiet (by simp [h.1]) _

/-! #### Part states (9.1) -/

/-- What the entries to STOPPING and HALTED share: with the events discarded and the session CLOSED, capture state reset
and pulses ended, the part is quiet. -/
theorem quiet_of_cleared {u : State} (hintake : u.intakeOpen = false ∧ u.intake = [] ∧ u.hold = [])
    (hdecision : u.deciding = none ∧ u.handover = none ∧ u.announcing = [])
    (hdelivery : u.part ≠ .running → u.part ≠ .stopping → u.delivery = none) (hsession : u.link.session = .closed) :
    (endPulses (resetCapture u)).QuietOutsideRunning where
  intake _ := by simpa using hintake
  decision _ := by simpa using hdecision
  delivery := by simpa using hdelivery
  inputs n := by
    simp only [endPulses_inputs, resetCapture_inputs, Fin.getElem_fin, mapBank_get]
    exact resetCapture_watched _ _
  outputs _ n := by simp
  session _ := by simpa using hsession

theorem closeAtStop_session (s : State) : (closeAtStop s).link.session = .closed := by
  unfold closeAtStop
  split
  · assumption
  · exact enterClosed_session _ _ _

theorem closeAtHalt_session (s : State) : (closeAtHalt s).link.session = .closed := by
  unfold closeAtHalt
  split
  · assumption
  · rfl

/-- R12, R53, R96, R116: the part is quiet at its entry to STOPPING, whatever it was before. -/
theorem enterStopping_quiet (late : List LateOffer) (s : State) :
    (enterStopping late s).part = .stopping ∧ (enterStopping late s).QuietOutsideRunning := by
  refine ⟨by simp [enterStopping, discardEvents], ?_⟩
  exact quiet_of_cleared ⟨rfl, rfl, rfl⟩ ⟨rfl, rfl, rfl⟩ (fun _ h => absurd rfl h) (closeAtStop_session _)

/-- R54, R97, R116, R141: the part is quiet at its entry to HALTED, whatever it was before. -/
theorem enterHalted_quiet (late : List LateOffer) (s : State) : (enterHalted late s).QuietOutsideRunning := by
  refine ((takeRaise_books _ _).trans (setCause_books _ _)).keepsQuiet ?_ |>.2
  exact quiet_of_cleared ⟨rfl, rfl, rfl⟩ ⟨rfl, rfl, rfl⟩ (fun _ _ => rfl) (closeAtHalt_session _)

/-- R142: the part is quiet after a device reset. -/
theorem deviceReset_quiet (s : State) : (deviceReset s).QuietOutsideRunning where
  intake _ := ⟨rfl, rfl, rfl⟩
  decision _ := ⟨rfl, rfl, rfl⟩
  delivery _ _ := rfl
  inputs n := by simp [deviceReset, InputLine.reset, InputLine.Watched]
  outputs _ n := by simp [deviceReset, State.reset, OutputLine.reset]
  session _ := rfl

/-- A change of the part state outside RUNNING keeps the part quiet where no delivery is in progress. -/
theorem quiet_of_not_running {s t : State} (q : s.QuietOutsideRunning) (hs : s.part ≠ .running)
    (hd : s.delivery = none) (h : KeepsBooksOnly { s with part := t.part } t) : t.QuietOutsideRunning := by
  refine (h.keepsQuiet ⟨?_, ?_, ?_, fun n hw => ?_, ?_, ?_⟩).2
  · exact fun _ => q.intake hs
  · exact fun _ => q.decision hs
  · exact fun _ _ => hd
  · exact absurd (q.inputs n hw).1 hs
  · exact fun _ => q.outputs hs
  · exact fun _ => q.session hs

theorem failStart_quiet {s : State} (q : s.QuietOutsideRunning) (hs : s.part = .starting) (e : StartError) :
    (failStart e s).QuietOutsideRunning :=
  quiet_of_not_running q (by simp [hs]) (q.delivery (by simp [hs]) (by simp [hs])) rfl

theorem startPart_quiet {s : State} (q : s.QuietOutsideRunning) : (startPart s).QuietOutsideRunning := by
  unfold startPart
  split
  · exact q
  · split
    · rename_i hidle
      have hs : s.part ≠ .running := by simp [hidle]
      have started : ∀ t : State, t.stores = { s.stores with
          part := t.part, intakeOpen := false, intake := [], hold := [] } → t.QuietOutsideRunning := by
        intro t ht
        refine quiet_of_not_running q hs (q.delivery hs (by simp [hidle])) (ht.trans ?_)
        obtain ⟨hopen, hi, hh⟩ := q.intake hs
        simp [State.stores, hopen, hi, hh]
      dsimp only
      split
      · exact started _ rfl
      · exact started _ rfl
    · exact q

theorem setupReadDone_quiet {s : State} (q : s.QuietOutsideRunning) (b : SetupBlock) :
    (setupReadDone b s).QuietOutsideRunning := by
  unfold setupReadDone
  split
  · rename_i hs _
    split
    · exact ⟨q.intake, q.decision, q.delivery, q.inputs, q.outputs, q.session⟩
    · exact failStart_quiet q hs _
  · exact q

theorem statusBlockInitDone_quiet {s : State} (q : s.QuietOutsideRunning) :
    (statusBlockInitDone s).QuietOutsideRunning := by
  unfold statusBlockInitDone
  split
  · refine quiet_of_running (by simp [writeHost]) fun n => ?_
    simp only [setCause_inputs, resetCapture_inputs, Fin.getElem_fin, mapBank_get]
    exact resetCapture_watched _ _
  · exact q

theorem stoppingEnd_quiet {s : State} (q : s.QuietOutsideRunning) : (stoppingEnd s).QuietOutsideRunning := by
  unfold stoppingEnd
  split
  · rename_i hdone
    simp only [stoppingDone, Bool.and_eq_true, beq_iff_eq, Option.isNone_iff_eq_none] at hdone
    obtain ⟨⟨⟨⟨⟨⟨⟨hp, -⟩, -⟩, hd⟩, -⟩, -⟩, -⟩, -⟩ := hdone
    exact quiet_of_not_running q (by simp [hp]) hd (by rw [commandIndexWritten_eq]; rfl)
  · exact q

/-! #### Commands (chapter 10)

A LINK_OPEN whose execution a STOP overtakes calls in STOPPING, until its leftovers are aborted (R140). So an execution
is quiet but for the session. -/

/-- The state with its session CLOSED. -/
def State.sessionClosed (s : State) : State := { s with link := { s.link with session := .closed } }

/-- The part would be quiet if its session were CLOSED. -/
def State.QuietButSession (s : State) : Prop := s.sessionClosed.QuietOutsideRunning

theorem State.QuietOutsideRunning.butSession {s : State} (q : s.QuietOutsideRunning) : s.QuietButSession :=
  ⟨q.intake, q.decision, q.delivery, q.inputs, q.outputs, fun _ => rfl⟩

theorem State.QuietButSession.quiet {s : State} (q : s.QuietButSession)
    (h : s.part ≠ .running → s.link.session = .closed) : s.QuietOutsideRunning :=
  ⟨q.intake, q.decision, q.delivery, q.inputs, q.outputs, h⟩

theorem KeepsBooksOnly.quietButSession {s t : State} (h : KeepsBooksOnly s t) (q : s.QuietButSession) :
    t.QuietButSession := by
  have closed : t.sessionClosed.stores = s.sessionClosed.stores :=
    congrArg (fun x : Stores => { x with session := Session.closed }) h
  exact (KeepsBooksOnly.keepsQuiet closed q).2

/-- An execution that begins in a quiet RUNNING part ends in RUNNING or STOPPING, quiet but for the session. -/
def Execution.KeepsQuiet (x : Execution) : Prop :=
  ∀ (falls : Falls) (s : State), s.part = .running → s.QuietOutsideRunning →
    ((x falls s).1.part = .running ∨ (x falls s).1.part = .stopping) ∧ (x falls s).1.QuietButSession

theorem whole_keepsQuiet_butSession {f : State → State × Answer}
    (hf : ∀ s, s.QuietOutsideRunning → (f s).1.part = s.part ∧ (f s).1.QuietButSession) :
    Execution.KeepsQuiet (whole f) := by
  rintro (_ | ⟨_ | n, late⟩ | ⟨_ | n⟩) s hp q
  · exact ⟨.inl ((hf s q).1.trans hp), (hf s q).2⟩
  · obtain ⟨hstop, hq⟩ := enterStopping_quiet late s
    exact ⟨.inr ((hf _ hq).1.trans hstop), (hf _ hq).2⟩
  · obtain ⟨hstop, hq⟩ := enterStopping_quiet late (f s).1
    exact ⟨.inr hstop, hq.butSession⟩
  · exact ⟨.inl hp, q.butSession⟩
  · exact ⟨.inl ((hf s q).1.trans hp), (hf s q).2⟩

theorem whole_keepsQuiet {f : State → State × Answer} (hf : ∀ s, KeepsQuiet s (f s).1) :
    Execution.KeepsQuiet (whole f) :=
  whole_keepsQuiet_butSession fun s q => ⟨(hf s q).1, (hf s q).2.butSession⟩

theorem rejected_keepsQuiet (status : Status) (s : State) : KeepsQuiet s (rejected status s).1 := .refl s

theorem advance_keepsQuiet (k : Nat) : ∀ (w : OfferSet) (s : State), KeepsQuiet s (w.advance k s).1 := by
  induction k with
  | zero => exact fun w s => .refl s
  | succ k ih =>
    intro w s
    simp only [OfferSet.advance]
    split
    · exact .refl s
    · rename_i n rest _
      refine KeepsQuiet.trans ?_ (ih _ _)
      unfold OfferSet.offer
      split
      · exact offerState_keepsQuiet n s
      · exact .refl s
      · exact .refl s

theorem makeOffers_keepsQuiet (w : OfferSet) : Execution.KeepsQuiet (makeOffers w) := by
  have advanced : ∀ (k : Nat) (s : State), s.part = .running → s.QuietOutsideRunning →
      ((w.advance k s).1.part = .running ∨ (w.advance k s).1.part = .stopping) ∧ (w.advance k s).1.QuietButSession :=
    fun k s hp q => ⟨.inl ((advance_keepsQuiet k w s q).1.trans hp), (advance_keepsQuiet k w s q).2.butSession⟩
  rintro (_ | ⟨requests, late⟩ | requests) s hp q
  · exact advanced _ s hp q
  · obtain ⟨hstop, hq⟩ := enterStopping_quiet late (w.advance requests s).1
    exact ⟨.inr hstop, hq.butSession⟩
  · exact advanced requests s hp q

theorem refreshExecution_keepsQuiet (tag lines : Word) : (refreshExecution tag lines).KeepsQuiet := by
  intro falls s
  unfold refreshExecution
  split
  · exact makeOffers_keepsQuiet _ falls s
  · exact whole_keepsQuiet (rejected_keepsQuiet _) falls s

theorem replaceRoute_keepsQuiet (f : RouteSetFields) (s : State) : KeepsQuiet s (replaceRoute f s) :=
  KeepsBooksOnly.keepsQuiet rfl

theorem routeSetExecution_keepsQuiet (tag : Word) (f : RouteSetFields) : (routeSetExecution tag f).KeepsQuiet := by
  intro falls s hp q
  unfold routeSetExecution
  split
  · split
    · exact makeOffers_keepsQuiet _ falls _ hp (replaceRoute_keepsQuiet f s q).2
    · exact whole_keepsQuiet (replaceRoute_keepsQuiet f) falls s hp q
  · exact whole_keepsQuiet (rejected_keepsQuiet _) falls s hp q

/-- R37: entries taken out of the Hold Queue leave it empty where it was. -/
theorem filterHold_keepsQuiet (p : HoldEntry → Bool) {s t : State}
    (h : KeepsBooksOnly { s with hold := s.hold.filter p } t) : KeepsQuiet s t := by
  refine KeepsQuiet.trans (t := { s with hold := s.hold.filter p }) (fun q => ?_) h.keepsQuiet
  refine ⟨rfl, fun hp => ?_, q.decision, q.delivery, q.inputs, q.outputs, q.session⟩
  obtain ⟨hopen, hi, hh⟩ := q.intake hp
  exact ⟨hopen, hi, by rw [hh]; rfl⟩

theorem routeClearExecution_keepsQuiet (f : RouteClearFields) : (routeClearExecution f).KeepsQuiet := by
  refine whole_keepsQuiet fun s => ?_
  split
  · dsimp only
    split
    · exact filterHold_keepsQuiet (fun h => h.event.source != sourceOf f.source) rfl
    · exact KeepsBooksOnly.keepsQuiet rfl
  · exact rejected_keepsQuiet _ s

theorem cancelTag_keepsQuiet (tag : Word) (s : State) : KeepsQuiet s (cancelTag tag s) :=
  filterHold_keepsQuiet (fun h => !h.hasTag tag) rfl

theorem changeRouteState_keepsQuiet (target : RouteState) (source : Half) (s : State) :
    KeepsQuiet s (changeRouteState target source s).1 := by
  unfold changeRouteState
  split
  · dsimp only
    split
    · exact rejected_keepsQuiet _ s
    · exact KeepsBooksOnly.keepsQuiet rfl
  · exact rejected_keepsQuiet _ s

/-- R82: the capture state of a line configured anew is reset. -/
theorem lineInExecution_keepsQuiet (f : LineInFields) : (lineInExecution f).KeepsQuiet := by
  refine whole_keepsQuiet fun s => ?_
  split
  · exact setInput_keepsQuiet fun _ => resetCapture_watched _ _
  · exact rejected_keepsQuiet _ s

/-- R93: the pulse of a line configured anew is ended. -/
theorem lineOutExecution_keepsQuiet (f : LineOutFields) : (lineOutExecution f).KeepsQuiet := by
  refine whole_keepsQuiet fun s => ?_
  split
  · exact setOutput_keepsQuiet fun _ _ => rfl
  · exact rejected_keepsQuiet _ s

theorem outputSetExecution_keepsQuiet (f : OutputSetFields) : (outputSetExecution f).KeepsQuiet := by
  refine whole_keepsQuiet fun s => ?_
  split
  · dsimp only
    split
    · rename_i hrun
      split
      · exact .of_running hrun.2 rfl rfl
      · exact rejected_keepsQuiet _ s
    · exact .refl s
  · exact rejected_keepsQuiet _ s

theorem scheduleExecution_keepsQuiet (f : ScheduleFields) : (scheduleExecution f).KeepsQuiet := by
  refine whole_keepsQuiet fun s => ?_
  split
  · exact rejected_keepsQuiet _ s
  · rename_i kind _
    split
    · refine (offerEvent_keepsQuiet (scheduleEvent f kind) s).trans fun q => ⟨rfl, ?_⟩
      exact ⟨q.intake, q.decision, q.delivery, q.inputs, q.outputs, q.session⟩
    · exact .refl s
    · exact .refl s

theorem resetCapture_keepsQuiet (s : State) : KeepsQuiet s (resetCapture s) := by
  unfold resetCapture
  refine fun q => ⟨rfl, q.intake, q.decision, q.delivery, fun n => ?_, q.outputs, q.session⟩
  rw [Fin.getElem_fin, mapBank_get]
  exact resetCapture_watched _ _

/-- R68: a shift of the pulses and of the delivery makes none. -/
theorem shifted_keepsQuiet (f : Int → Int) (g : Delivery → Delivery) (s : State) : KeepsQuiet s { s with
    outputs := mapBank (fun o => { o with pulse := o.pulse.map f }) s.outputs
    delivery := s.delivery.map g } := by
  refine fun q => ⟨rfl, q.intake, q.decision, fun hr hs => ?_, q.inputs, fun hp n => ?_, q.session⟩
  · rw [q.delivery hr hs]; rfl
  · have ho : s.outputs[n].pulse = none := q.outputs hp n
    rw [Fin.getElem_fin] at ho ⊢
    rw [mapBank_get, ho]
    rfl

theorem stepTime_keepsQuiet (t : Nat) (s : State) : KeepsQuiet s (stepTime t s) := by
  have captured : KeepsQuiet s (resetCapture { s with localTime := t }) := (resetCapture_keepsQuiet _).after_books rfl
  have shifted := captured.trans (shifted_keepsQuiet (· + ((t : Int) - s.localTime))
    (fun d => { d with shift := d.shift + ((t : Int) - s.localTime) }) _)
  unfold stepTime
  dsimp only
  split
  · exact shifted.trans (KeepsBooksOnly.keepsQuiet rfl)
  · exact shifted.trans (KeepsBooksOnly.keepsQuiet rfl)

theorem timeSetExecution_keepsQuiet (time : Quad) : (timeSetExecution time).KeepsQuiet := by
  refine whole_keepsQuiet fun s => ?_
  split
  · split
    · exact stepTime_keepsQuiet _ s
    · exact .refl s
  · exact rejected_keepsQuiet _ s

/-- R105: a LINK_OPEN moves the session alone of what quiet speaks of. -/
theorem linkOpenExecution_keepsQuiet (tag : Word) (f : LinkOpenFields) : (linkOpenExecution tag f).KeepsQuiet := by
  refine whole_keepsQuiet_butSession fun s q => ?_
  have called : ∀ l : Link, State.QuietButSession (joinDeferred tag .linkOpen { s with link := l }) := fun l =>
    ⟨q.intake, q.decision, q.delivery, q.inputs, q.outputs, fun _ => rfl⟩
  split
  · split
    · exact ⟨rfl, called _⟩
    · exact ⟨rfl, called _⟩
    · exact ⟨rfl, q.butSession⟩
    · exact ⟨rfl, q.butSession⟩
    · exact ⟨rfl, q.butSession⟩
  · exact ⟨rfl, q.butSession⟩

theorem linkCloseExecution_keepsQuiet : linkCloseExecution.KeepsQuiet :=
  whole_keepsQuiet fun s => .ite (fun _ => .refl s) fun _ => enterClosed_keepsQuiet _ _ s

theorem closeIntake_keepsQuiet (s : State) : KeepsQuiet s { s with intakeOpen := false } := fun q =>
  ⟨rfl, fun hp => ⟨rfl, (q.intake hp).2⟩, q.decision, q.delivery, q.inputs, q.outputs, q.session⟩

theorem quiesceExecution_keepsQuiet (tag deadline : Word) : (quiesceExecution tag deadline).KeepsQuiet := by
  refine whole_keepsQuiet fun s => ?_
  split
  · exact rejected_keepsQuiet _ s
  · split
    · exact .refl s
    · exact (closeIntake_keepsQuiet s).trans ((settle_books _).keepsQuiet.after_books rfl)

/-- R12: OPEN leaves the intake CLOSED outside RUNNING. -/
theorem openExecution_keepsQuiet : openExecution.KeepsQuiet := by
  refine whole_keepsQuiet fun s => ?_
  refine KeepsQuiet.trans (t := { s with intakeOpen := s.part == .running }) (fun q => ?_)
    (finishQuiesce_books _ _).keepsQuiet
  exact ⟨rfl, fun hp => ⟨by simpa using hp, (q.intake hp).2⟩, q.decision, q.delivery, q.inputs, q.outputs, q.session⟩

theorem statsReadExecution_keepsQuiet (tag : Word) (f : StatsReadFields) : (statsReadExecution tag f).KeepsQuiet := by
  refine whole_keepsQuiet fun s => ?_
  split
  · split
    · exact .refl s
    · exact KeepsBooksOnly.keepsQuiet rfl
  · exact rejected_keepsQuiet _ s

theorem faultsExecution_keepsQuiet (f : FaultsFields) : (faultsExecution f).KeepsQuiet := by
  refine whole_keepsQuiet fun s => ?_
  split
  · exact KeepsBooksOnly.keepsQuiet rfl
  · exact rejected_keepsQuiet _ s

theorem fenceExecution_keepsQuiet (tag : Word) : (fenceExecution tag).KeepsQuiet := by
  refine whole_keepsQuiet fun s => ?_
  split
  · exact .refl s
  · exact (settle_books _).keepsQuiet.after_books rfl

/-- Every command keeps the part quiet but for the session, whatever falls inside its execution. -/
theorem executionOf_keepsQuiet (tag : Word) (c : Command) : (executionOf tag c).KeepsQuiet := by
  cases c with
  | unknown kind => exact whole_keepsQuiet (rejected_keepsQuiet _)
  | routeSet f => exact routeSetExecution_keepsQuiet tag f
  | routeClear f => exact routeClearExecution_keepsQuiet f
  | routeSuspend source => exact whole_keepsQuiet (changeRouteState_keepsQuiet _ source)
  | routeResume source => exact whole_keepsQuiet (changeRouteState_keepsQuiet _ source)
  | lineInConfig f => exact lineInExecution_keepsQuiet f
  | lineOutConfig f => exact lineOutExecution_keepsQuiet f
  | outputSet f => exact outputSetExecution_keepsQuiet f
  | schedule f => exact scheduleExecution_keepsQuiet f
  | cancel eventTag => exact whole_keepsQuiet fun s => cancelTag_keepsQuiet eventTag s
  | refresh lines => exact refreshExecution_keepsQuiet tag lines
  | timeRead => exact whole_keepsQuiet fun s => .refl s
  | timeSet time => exact timeSetExecution_keepsQuiet time
  | linkOpen f => exact linkOpenExecution_keepsQuiet tag f
  | linkClose => exact linkCloseExecution_keepsQuiet
  | quiesce deadline => exact quiesceExecution_keepsQuiet tag deadline
  | openIntake => exact openExecution_keepsQuiet
  | statsRead f => exact statsReadExecution_keepsQuiet tag f
  | faults f => exact faultsExecution_keepsQuiet f
  | fence => exact fenceExecution_keepsQuiet tag

/-- R116, R140: with the leftovers aborted the session is CLOSED in STOPPING. -/
theorem abortLeftovers_quiet {s : State} (hp : s.part = .running ∨ s.part = .stopping) (q : s.QuietButSession) :
    (abortLeftovers s).QuietOutsideRunning := by
  rcases hp with hp | hp
  · rw [abortLeftovers_running hp]
    exact q.quiet fun h => absurd hp h
  · have aborted : (abortDeferred s).QuietButSession := (abortDeferred_books s).quietButSession q
    rw [abortLeftovers, if_pos hp]
    unfold closeAtStop
    split
    · exact aborted.quiet fun _ => ‹_›
    · have hclosed := enterClosed_session .stop true (abortDeferred s)
      rw [enterClosed_eq]
      exact ⟨aborted.intake, aborted.decision, aborted.delivery, aborted.inputs, aborted.outputs, fun _ => hclosed⟩

theorem runCommand_quiet (falls : Falls) (kind : Byte) (tag : Word) {x : Execution} (hx : x.KeepsQuiet) {s : State}
    (q : s.QuietOutsideRunning) : (runCommand falls kind tag x s).QuietOutsideRunning := by
  unfold runCommand
  split
  · rename_i h
    have taken := (takeCommand_books s).keepsQuiet q
    obtain ⟨hpart, executed⟩ := hx falls (takeCommand s) (taken.1.trans h.1) taken.2
    have answered := answerCommand_books kind tag (x falls (takeCommand s)).2 (x falls (takeCommand s)).1
    refine ((commandFetch_books _).keepsQuiet (abortLeftovers_quiet ?_ (answered.quietButSession executed))).2
    rw [show (answerCommand kind tag _ _).part = _ from congrArg Stores.part answered]
    exact hpart
  · exact q

theorem goOnOffering_quiet (pause : Option Nat) (w : OfferSet) {s : State} (q : s.QuietOutsideRunning) :
    (goOnOffering pause w s).QuietOutsideRunning := by
  refine (((answerCommand_books _ _ _ _).trans (commandFetch_books _)).keepsQuiet ?_).2
  have kept : State.QuietOutsideRunning { s with executing := none } :=
    ⟨q.intake, q.decision, q.delivery, q.inputs, q.outputs, q.session⟩
  split
  · cases pause with
    | none => exact (advance_keepsQuiet _ w _ kept).2
    | some n => exact (advance_keepsQuiet n w _ kept).2
  · exact kept
  · exact q
  · exact q
  · exact q

theorem runOffering_quiet (pause : Option Nat) (tag : Word) (c : Command) {x : Execution} (hx : x.KeepsQuiet)
    {s : State} (q : s.QuietOutsideRunning) : (runOffering pause tag c x s).QuietOutsideRunning := by
  unfold runOffering
  split
  · exact runCommand_quiet _ _ tag hx q
  · split
    · exact goOnOffering_quiet pause _ q
    · exact q

theorem stopPart_quiet (during : Option Overtaken) (late : List LateOffer) {s : State} (q : s.QuietOutsideRunning) :
    (stopPart during late s).QuietOutsideRunning := by
  unfold stopPart
  split
  · split
    · exact (enterStopping_quiet late s).2
    · split
      · exact runCommand_quiet _ _ _ (executionOf_keepsQuiet _ _) q
      · exact (enterStopping_quiet late s).2
  · exact q

theorem haltPart_quiet (during : Option Overtaken) (late : List LateOffer) (indexed : Bool) (s : State) :
    (haltPart during late indexed s).QuietOutsideRunning := by
  unfold haltPart
  split
  · exact enterHalted_quiet late s
  · split
    · exact enterHalted_quiet late _
    · exact enterHalted_quiet late s

theorem busMasterError_quiet (during : Option Overtaken) (late : List LateOffer) (indexed : Bool) {s : State}
    (q : s.QuietOutsideRunning) : (busMasterError during late indexed s).QuietOutsideRunning := by
  unfold busMasterError
  split
  · exact failStart_quiet q ‹_› _
  · exact haltPart_quiet during late indexed s
  · exact haltPart_quiet during late indexed s
  · exact q
  · exact q

/-! #### The register window and STATS_READ -/

theorem control_quiet (word : Word) {s : State} (q : s.QuietOutsideRunning) : (control word s).QuietOutsideRunning := by
  unfold control
  split
  · exact deviceReset_quiet s
  · split
    · exact startPart_quiet q
    · split
      · exact stopPart_quiet none [] q
      · exact q

theorem registerWrite_quiet (offset count : Nat) (word : Word) {s : State} (q : s.QuietOutsideRunning) :
    (registerWrite offset count word s).QuietOutsideRunning := by
  unfold registerWrite
  split
  · exact q
  · split
    · exact control_quiet word q
    · exact ⟨q.intake, q.decision, q.delivery, q.inputs, q.outputs, q.session⟩
    · exact ⟨q.intake, q.decision, q.delivery, q.inputs, q.outputs, q.session⟩
    · exact ((submit_books word s).keepsQuiet q).2
    · exact ((release_books word s).keepsQuiet q).2
    · exact ((writeCause_books word s).keepsQuiet q).2
    · exact ((writeEnable_books word s).keepsQuiet q).2
    · exact q

/-- R188: the clear flag empties counters alone. -/
theorem clearIn_keepsQuiet (item : StatsItem) (s : State) : KeepsQuiet s (item.clearIn s) := by
  cases item with
  | inputCounter n k => exact setInput_keepsQuiet id
  | outputCounter n k => exact setOutput_keepsQuiet fun _ => id
  | globalCounter k =>
    simp only [StatsItem.clearIn, clearGlobal]
    split <;> exact KeepsBooksOnly.keepsQuiet rfl
  | _ => exact KeepsBooksOnly.keepsQuiet rfl

theorem statsItemRead_keepsQuiet (board : BitVec 16) (s : State) : KeepsQuiet s (statsItemRead board s) := by
  unfold statsItemRead
  split
  · split
    · exact .refl s
    · exact .ite (fun _ => (clearIn_keepsQuiet _ _).after_books rfl) fun _ => KeepsBooksOnly.keepsQuiet rfl
  · exact .refl s

/-! #### Every step -/

theorem intact_keepsQuiet {sender : Half} {f : State → State} (hf : ∀ s, KeepsQuiet s (f s)) (s : State) :
    KeepsQuiet s (if sender = 0 then countMalformed s else f s) :=
  .ite (fun _ => KeepsBooksOnly.keepsQuiet rfl) fun _ => hf s

theorem exec_takeUpTo_quiet (pause : Option Nat) (tag : Word) (c : Command) {s : State} (q : s.QuietOutsideRunning) :
    ∃ t, exec (takeUpTo pause tag c) s = .next t ∧ t.QuietOutsideRunning := by
  obtain ⟨t, ht, hcases⟩ := exec_takeUpTo pause tag c s
  refine ⟨t, ht, ?_⟩
  rcases hcases with rfl | ⟨kind, rfl⟩ | ⟨p, rfl⟩
  · exact q
  · exact runCommand_quiet _ _ tag (executionOf_keepsQuiet tag c) q
  · exact runOffering_quiet _ tag c (executionOf_keepsQuiet tag c) q

/-- R5, R12, R37, R53, R72, R96, R103: every meaning keeps the part quiet outside RUNNING. -/
theorem exec_quiet (c : Instr) {s : State} (q : s.QuietOutsideRunning) :
    ∃ t, exec c s = .next t ∧ t.QuietOutsideRunning := by
  cases c with
  | start => exact ⟨_, rfl, startPart_quiet q⟩
  | stop during late => exact ⟨_, rfl, stopPart_quiet during late q⟩
  | reset => exact ⟨_, rfl, deviceReset_quiet s⟩
  | resetNAssert =>
    have reset := deviceReset_quiet s
    exact ⟨_, rfl, reset.intake, reset.decision, reset.delivery, reset.inputs, reset.outputs, reset.session⟩
  | resetNRelease => exact ⟨_, rfl, q.intake, q.decision, q.delivery, q.inputs, q.outputs, q.session⟩
  | functionReset => exact ⟨_, rfl, deviceReset_quiet s⟩
  | setupReadDone block => exact ⟨_, rfl, setupReadDone_quiet q block⟩
  | statusBlockInitDone => exact ⟨_, rfl, statusBlockInitDone_quiet q⟩
  | stoppingEnd => exact ⟨_, rfl, stoppingEnd_quiet q⟩
  | busMasterError during late indexed => exact ⟨_, rfl, busMasterError_quiet during late indexed q⟩
  | submit word => exact ⟨_, rfl, ((submit_books word s).keepsQuiet q).2⟩
  | release word => exact ⟨_, rfl, ((release_books word s).keepsQuiet q).2⟩
  | intCause word => exact ⟨_, rfl, ((writeCause_books word s).keepsQuiet q).2⟩
  | intEnable word => exact ⟨_, rfl, ((writeEnable_books word s).keepsQuiet q).2⟩
  | registerWrite offset count word => exact ⟨_, rfl, registerWrite_quiet offset count word q⟩
  | unknownCommand tag kind => exact exec_takeUpTo_quiet none tag (.unknown kind) q
  | routeSet tag f pause => exact exec_takeUpTo_quiet pause tag (.routeSet f) q
  | routeClear tag f => exact exec_takeUpTo_quiet none tag (.routeClear f) q
  | routeSuspend tag source => exact exec_takeUpTo_quiet none tag (.routeSuspend source) q
  | routeResume tag source => exact exec_takeUpTo_quiet none tag (.routeResume source) q
  | lineInConfig tag f => exact exec_takeUpTo_quiet none tag (.lineInConfig f) q
  | lineOutConfig tag f => exact exec_takeUpTo_quiet none tag (.lineOutConfig f) q
  | outputSet tag f => exact exec_takeUpTo_quiet none tag (.outputSet f) q
  | schedule tag f => exact exec_takeUpTo_quiet none tag (.schedule f) q
  | cancel tag eventTag => exact exec_takeUpTo_quiet none tag (.cancel eventTag) q
  | refresh tag lines pause => exact exec_takeUpTo_quiet pause tag (.refresh lines) q
  | timeRead tag => exact exec_takeUpTo_quiet none tag .timeRead q
  | timeSet tag time => exact exec_takeUpTo_quiet none tag (.timeSet time) q
  | linkOpen tag f => exact exec_takeUpTo_quiet none tag (.linkOpen f) q
  | linkClose tag => exact exec_takeUpTo_quiet none tag .linkClose q
  | quiesce tag deadline => exact exec_takeUpTo_quiet none tag (.quiesce deadline) q
  | openIntake tag => exact exec_takeUpTo_quiet none tag .openIntake q
  | statsRead tag f => exact exec_takeUpTo_quiet none tag (.statsRead f) q
  | faults tag f => exact exec_takeUpTo_quiet none tag (.faults f) q
  | fence tag => exact exec_takeUpTo_quiet none tag .fence q
  | quiesceDeadline => exact ⟨_, rfl, ((quiesceDeadline_books s).keepsQuiet q).2⟩
  | statsItemRead board => exact ⟨_, rfl, (statsItemRead_keepsQuiet board s q).2⟩
  | statsReadDone => exact ⟨_, rfl, ((statsReadDone_books s).keepsQuiet q).2⟩
  | routerTake pause => exact ⟨_, rfl, (routerTake_keepsQuiet pause s q).2⟩
  | holdRelease => exact ⟨_, rfl, (holdRelease_keepsQuiet s q).2⟩
  | handoverTake => exact ⟨_, rfl, (handoverTake_keepsQuiet s q).2⟩
  | applicationRequest line => exact ⟨_, rfl, (applicationRequest_keepsQuiet line s q).2⟩
  | pulseEnd line => exact ⟨_, rfl, (setOutput_keepsQuiet (fun _ h => expire_pulse_none h _) q).2⟩
  | eventRecordTake poster => exact ⟨_, rfl, (eventRecordTake_keepsQuiet poster s q).2⟩
  | recordWriteDone target => exact ⟨_, rfl, ((recordWriteDone_books target s).keepsQuiet q).2⟩
  | rawChange line level => exact ⟨_, rfl, (rawChange_keepsQuiet line level s q).2⟩
  | filterAccept line => exact ⟨_, rfl, (filterAccept_keepsQuiet line s q).2⟩
  | spacingEnd line => exact ⟨_, rfl, (spacingEnd_keepsQuiet line s q).2⟩
  | faultRaise index => exact ⟨_, rfl, ((faultRaise_books index s).keepsQuiet q).2⟩
  | crcError => exact ⟨_, rfl, ((crcError_books s).keepsQuiet q).2⟩
  | frameMalformed =>
    exact ⟨_, rfl, (receive_keepsQuiet (f := countMalformed) (fun _ => KeepsBooksOnly.keepsQuiet rfl) s q).2⟩
  | rxHello sender seen =>
    exact ⟨_, rfl, (receive_keepsQuiet (intact_keepsQuiet (takeHello_keepsQuiet sender seen)) s q).2⟩
  | rxClose sender => exact ⟨_, rfl, (receive_keepsQuiet (intact_keepsQuiet (takeClose_keepsQuiet sender)) s q).2⟩
  | rxIdle sender => exact ⟨_, rfl, (receive_keepsQuiet (intact_keepsQuiet (f := fun s => s) .refl) s q).2⟩
  | rxEvent f => exact ⟨_, rfl, (receive_keepsQuiet (takeEvent_keepsQuiet f) s q).2⟩
  | rxAck next => exact ⟨_, rfl, (receive_keepsQuiet (takeAck_keepsQuiet next) s q).2⟩
  | rxProbe number t1 =>
    exact ⟨_, rfl, (receive_keepsQuiet (fun s => (takeProbe_books number t1 s).keepsQuiet) s q).2⟩
  | rxEcho number t1 t2 t3 part => exact ⟨_, rfl, (rxEcho_keepsQuiet number t1 t2 t3 part s q).2⟩
  | frameTransmit => exact ⟨_, rfl, (frameTransmit_keepsQuiet s q).2⟩
  | frameSent => exact ⟨_, rfl, ((frameSent_books s).keepsQuiet q).2⟩
  | helloTimer => exact ⟨_, rfl, ((helloTimer_books s).keepsQuiet q).2⟩
  | openTimeout => exact ⟨_, rfl, (openTimeout_keepsQuiet s q).2⟩
  | keepalive => exact ⟨_, rfl, ((keepalive_books s).keepsQuiet q).2⟩
  | silenceTimeout => exact ⟨_, rfl, (silenceTimeout_keepsQuiet s q).2⟩
  | probeAttemptEnd => exact ⟨_, rfl, (probeAttemptEnd_keepsQuiet s q).2⟩
  | probeTimer => exact ⟨_, rfl, ((probeTimer_books s).keepsQuiet q).2⟩
  | ackTimeout => exact ⟨_, rfl, (ackTimeout_keepsQuiet s q).2⟩
  | stalenessTimeout => exact ⟨_, rfl, ((stalenessTimeout_books s).keepsQuiet q).2⟩
  | tick => exact ⟨_, rfl, ((tick_books s).keepsQuiet q).2⟩

/-- Settles O6: every meaning keeps the part quiet (`exec_quiet`), and the queue of waiting steps is not spoken of. -/
theorem stepKeepsQuietOutsideRunning : Obligations.StepKeepsQuietOutsideRunning := by
  intro s t q h
  unfold step at h
  split at h
  · cases h
    exact q
  · rename_i c rest _
    have waiting : State.QuietOutsideRunning { s with pending := rest } :=
      ⟨q.intake, q.decision, q.delivery, q.inputs, q.outputs, q.session⟩
    obtain ⟨u, hu, hq⟩ := exec_quiet c waiting
    rw [hu] at h
    cases h
    exact hq

/-! ### The reset state (R142) -/

theorem reset_withinCapacity : State.reset.WithinCapacity :=
  ⟨Nat.zero_le _, Nat.zero_le _, Nat.zero_le _, Nat.zero_le _, Nat.zero_le _⟩

theorem reset_holdOrdered : State.reset.HoldOrdered :=
  ⟨List.Pairwise.nil, fun _ h => absurd h List.not_mem_nil, List.nodup_nil⟩

/-- R142: no geometry is held, and nothing is deferred, read, executed or written. -/
theorem reset_ringsSound : State.reset.RingsSound where
  geometry _ _ h := nomatch h
  held h := by rcases h with h | h <;> cases h
  starting _ h := nomatch h
  nodup := List.nodup_nil
  linkOpen _ h := absurd h List.not_mem_nil
  idle _ _ := rfl
  reading h := nomatch h
  executing h := absurd rfl h
  indices h := absurd rfl h
  offering _ h := nomatch h

theorem reset_quiet : State.reset.QuietOutsideRunning where
  intake _ := ⟨rfl, rfl, rfl⟩
  decision _ := ⟨rfl, rfl, rfl⟩
  delivery _ _ := rfl
  inputs n := by simp [State.reset, InputLine.reset, InputLine.Watched]
  outputs _ n := by simp [State.reset, OutputLine.reset]
  session _ := rfl

/-- R103, R120, R129: the session is CLOSED, nothing is queued, and every timer stands still. -/
theorem reset_linkSound : Link.reset.Sound where
  sequenced := rfl
  fresh h := nomatch h
  outstanding h := absurd rfl h
  probes h := absurd rfl h
  queue _ := ⟨rfl, rfl⟩
  waiting h := absurd rfl h
  ackTimer := by simp [Link.reset]
  silence := by simp [Link.reset]
  openTimer := by simp [Link.reset]
  hello := by simp [Link.reset]
  own h := nomatch h

/-- Settles O3: each invariant of the state right after a device reset, field by field. -/
theorem resetStateIsSound : Obligations.ResetStateIsSound :=
  ⟨reset_withinCapacity, reset_holdOrdered, reset_ringsSound, reset_quiet, reset_linkSound, List.Pairwise.nil, rfl⟩

/-! ### Events the Router does not route (R9, R17 to R20) -/

/-- R9: the Router takes the oldest event of the intake and decides on it. -/
theorem routerTake_takes {s : State} {e : Event} {rest : List Event} (hp : s.part = .running) (hd : s.deciding = none)
    (hh : s.handover = none) (hi : s.intake = e :: rest) (pause : Option DecisionStage) :
    routerTake pause s = (decideEvent pause e { s with intake := rest }).settled := by
  simp only [routerTake, hp, hd, hh, hi, and_self, if_true, settle_eq_settled]

/-- R9, R41: with nothing to take, with a decision that waits, and outside RUNNING the Router takes nothing. -/
theorem routerTake_idle {s : State}
    (h : s.part ≠ .running ∨ s.handover ≠ none ∨ (s.deciding = none ∧ s.intake = [])) (pause : Option DecisionStage) :
    routerTake pause s = s := by
  unfold routerTake
  split
  · rename_i hr
    rcases h with h | h | ⟨hd, hi⟩
    · exact absurd hr.1 h
    · exact absurd hr.2 h
    · rw [hd, hi]
  · rfl

theorem decideEvent_unused {s : State} {e : Event} (h : (routeOf s e.source).state = .unused)
    (pause : Option DecisionStage) :
    decideEvent pause e s = { s with unrouted := s.unrouted.count e.origin } := by
  simp only [decideEvent, lookup, h]

theorem decideEvent_suspended {s : State} {e : Event} {pause : Option DecisionStage}
    (h : (routeOf s e.source).state = .suspended) (hpause : pause ≠ some .lookedUp) :
    decideEvent pause e s = countRoute e.source (fun c => { c with suppressed := bump c.suppressed }) s := by
  simp only [decideEvent, lookup, h, Deciding.reach, hpause, if_false, decideReading, if_true]

/-- R19, R20: the reading of an ACTIVE entry that does not accept the kind, or consumes the FALL. -/
theorem decideEvent_filtered {s : State} {e : Event} {pause : Option DecisionStage}
    (h : (routeOf s e.source).state = .active) (hpause : pause ≠ some .lookedUp)
    (hf : (routeOf s e.source).config.accepts e.kind = false
      ∨ (routeOf s e.source).config.convert e.kind = none) :
    decideEvent pause e s = countRoute e.source (fun c => { c with filtered := bump c.filtered }) s := by
  simp only [decideEvent, lookup, h, Deciding.reach, hpause, if_false, decideReading, Bool.false_eq_true]
  rcases hf with hf | hf
  · rw [hf]; rfl
  · split
    · rw [hf]
    · rfl

theorem convert_fall {c : RouteConfig} (h : c.width ≠ 0) : c.convert .fall = none := by
  unfold RouteConfig.convert
  rw [if_neg h]

/-- Settles O38: the outcomes are those of `decideEvent` by the entry's state, and of a Router that takes nothing. -/
theorem routerEndsEventsNotRouted : Obligations.RouterEndsEventsNotRouted := by
  intro s e rest pause entry count takes accepted
  have run : exec (.routerTake pause) s = .next (routerTake pause s) := rfl
  rw [run]
  refine ⟨?_, ?_, ?_, fun h => by rw [routerTake_idle h]⟩
  · rintro ⟨hp, hd, hh, hi⟩ hs
    rw [routerTake_takes hp hd hh hi, decideEvent_unused (s := { s with intake := rest }) hs]
    cases e.origin <;> rfl
  · rintro ⟨hp, hd, hh, hi⟩ hs hpause
    rw [routerTake_takes hp hd hh hi, decideEvent_suspended (s := { s with intake := rest }) hs hpause]
    rfl
  · rintro ⟨hp, hd, hh, hi⟩ hs hpause hf
    rw [routerTake_takes hp hd hh hi, decideEvent_filtered (s := { s with intake := rest }) hs hpause]
    · rfl
    · refine hf.imp (fun h => ?_) fun h => ?_
      · exact Bool.eq_false_iff.2 h
      · rw [h.1]; exact convert_fall h.2

/-! ### Sets of offers and the announce (R6, R8, R79 to R81, R161, R167) -/

/-! #### STATE events, one after another -/

/-- R79: the line `m` after the lines `ns` have had their offers accepted. -/
theorem stateEventsMade_input (ns : List (Fin 16)) (s : State) (m : Fin 16) : (s.stateEventsMade ns).inputs[m]
    = if m ∈ ns then { s.inputs[m] with reported := s.inputs[m].accepted } else s.inputs[m] := by
  simp [State.stateEventsMade]

/-- States that differ in the intake and the lines alone are equal when these are. -/
theorem offerFields_ext {s : State} {i j : List Event} {v w : Vector InputLine 16} (hi : i = j)
    (hv : ∀ m : Fin 16, v[m] = w[m]) :
    ({ s with intake := i, inputs := v } : State) = { s with intake := j, inputs := w } := by
  rw [hi, show v = w from Vector.ext fun m hm => hv ⟨m, hm⟩]

theorem stateEventsMade_nil (s : State) : s.stateEventsMade [] = s :=
  offerFields_ext (by simp) fun m => by simp

/-- R8: the offers of a set are that of its first line, and then those of the lines after it. -/
theorem stateEventsMade_cons (n : Fin 16) (ns : List (Fin 16)) (s : State) :
    (s.stateEventsMade [n]).stateEventsMade ns = s.stateEventsMade (n :: ns) := by
  have source : ∀ m : Fin 16, (s.stateEventsMade [n]).inputs[m].config.source = s.inputs[m].config.source := fun m => by
    rw [stateEventsMade_input]; split <;> rfl
  have accepted : ∀ m : Fin 16, (s.stateEventsMade [n]).inputs[m].accepted = s.inputs[m].accepted := fun m => by
    rw [stateEventsMade_input]; split <;> rfl
  refine offerFields_ext ?_ fun m => ?_
  · simp only [source, accepted]
    simp [State.stateEventsMade]
  · simp only [Fin.getElem_fin, Vector.getElem_ofFn]
    simp only [← Fin.getElem_fin, stateEventsMade_input, List.mem_cons, List.not_mem_nil, or_false]
    by_cases hn : m = n <;> by_cases hm : m ∈ ns <;> simp [hn, hm]

/-- R6, R79: an accepted offer of a STATE event. -/
theorem offerState_accepted {s : State} (h : offerAnswer s = .accepted) (n : Fin 16) :
    offerState n s = s.stateEventsMade [n] := by
  simp only [offerState, h, offerEvent, setInput]
  refine offerFields_ext rfl fun m => ?_
  simp only [Fin.getElem_fin, Vector.getElem_ofFn, Vector.getElem_set, List.mem_singleton, Fin.ext_iff]
  by_cases hm : (m : Nat) = n
  · simp [hm]
  · rw [if_neg hm, if_neg (fun h => hm h.symm)]

theorem acceptedLines_nil (s : State) : s.acceptedLines [] = [] := by simp [State.acceptedLines]

/-- R6: an intake that accepts takes the offer of the first line, and answers the others as it then stands. -/
theorem acceptedLines_cons {s : State} (h : offerAnswer s = .accepted) (n : Fin 16) (ns : List (Fin 16)) :
    s.acceptedLines (n :: ns) = n :: (s.stateEventsMade [n]).acceptedLines ns := by
  obtain ⟨hopen, hroom⟩ := (offerAnswer_accepted_iff s).1 h
  have hsize : 64 - s.intake.length = (64 - (s.stateEventsMade [n]).intake.length) + 1 := by
    have : s.intake.length < 64 := hroom
    simp only [State.stateEventsMade, List.length_append, List.length_map, List.length_singleton]
    omega
  have hopen' : (s.stateEventsMade [n]).intakeOpen = true := hopen
  simp only [State.acceptedLines, hopen, hopen', if_true, hsize, List.take_succ_cons]

/-- R6: an intake that refuses one offer refuses them all. -/
theorem acceptedLines_refused {s : State} (h : offerAnswer s ≠ .accepted) (ns : List (Fin 16)) :
    s.acceptedLines ns = [] := by
  unfold State.acceptedLines
  split
  · rename_i hopen
    have hfull : 64 ≤ s.intake.length := by
      by_contra hroom
      exact h ((offerAnswer_accepted_iff s).2 ⟨hopen, Nat.lt_of_not_le hroom⟩)
    rw [Nat.sub_eq_zero_of_le hfull, List.take_zero]
  · rfl

/-! #### The offers of a set -/

/-- R8, R80: the set after its next `n` offers are made in `s`. -/
def OfferSet.afterOffers (n : Nat) (s : State) (w : OfferSet) : OfferSet :=
  let first := w.lines.take n
  let made := s.acceptedLines first
  { w with
    lines := w.lines.drop n, made := w.made + made.length, refused := w.refused + (first.length - made.length)
    closed := w.closed || (!s.intakeOpen && !first.isEmpty) }

/-- With no offer to make the set stays as it is. -/
theorem afterOffers_none {n : Nat} {w : OfferSet} (h : w.lines.take n = []) (s : State) :
    w.afterOffers n s = { w with lines := w.lines.drop n } := by
  simp [OfferSet.afterOffers, h, acceptedLines_nil]

/-- R8, R80: the offers of a set are answered one after another: those the intake accepts are made, and the set counts
the others. -/
theorem advance_eq (k : Nat) : ∀ (w : OfferSet) (s : State),
    w.advance k s = (s.stateEventsMade (s.acceptedLines (w.lines.take k)), w.afterOffers k s) := by
  induction k with
  | zero =>
    intro w s
    rw [afterOffers_none (List.take_zero), List.take_zero, acceptedLines_nil, stateEventsMade_nil]
    rfl
  | succ k ih =>
    intro w s
    simp only [OfferSet.advance]
    split
    · rename_i hnil
      rw [afterOffers_none (by simp [hnil]), hnil, List.take_nil, acceptedLines_nil, stateEventsMade_nil]
      cases w
      cases hnil
      rfl
    · rename_i n rest hlines
      rw [ih, hlines, List.take_succ_cons]
      cases hanswer : offerAnswer s with
      | accepted =>
        have hopen := ((offerAnswer_accepted_iff s).1 hanswer).1
        have hopen' : (s.stateEventsMade [n]).intakeOpen = true := hopen
        simp only [OfferSet.offer, hanswer, offerState_accepted hanswer, acceptedLines_cons hanswer,
          stateEventsMade_cons, OfferSet.afterOffers, hlines, List.take_succ_cons, List.drop_succ_cons,
          List.length_cons, hopen, hopen', Bool.not_true, Bool.false_and, Nat.add_sub_add_right]
        rw [Nat.add_right_comm, Nat.add_assoc]
      | full =>
        have hopen := ((offerAnswer_full_iff s).1 hanswer).1
        have hnone := acceptedLines_refused (s := s) (by simp [hanswer])
        simp only [OfferSet.offer, hanswer, OfferSet.afterOffers, hlines, hnone, List.take_succ_cons,
          List.drop_succ_cons, List.length_cons, hopen, Bool.not_true, Bool.false_and, List.length_nil, Nat.sub_zero]
        rw [Nat.add_right_comm, Nat.add_assoc]
      | closed =>
        have hclosed := (offerAnswer_closed_iff s).1 hanswer
        have hnone := acceptedLines_refused (s := s) (by simp [hanswer])
        simp only [OfferSet.offer, hanswer, OfferSet.afterOffers, hlines, hnone, List.take_succ_cons,
          List.drop_succ_cons, List.length_cons, hclosed, List.length_nil, Nat.sub_zero, List.isEmpty_cons,
          Bool.not_false, Bool.true_or, Bool.and_true, Bool.or_true]
        rw [Nat.add_right_comm, Nat.add_assoc]

/-! #### The end of a set: its completion and the next read (R157, R159) -/

theorem dueQuiesce_none {u : State} (h : (dueQuiesce u).1 = []) : (dueQuiesce u).2 = u.deferred := by
  unfold dueQuiesce at h ⊢
  split
  · split
    · simp_all
    · rfl
  · rfl

theorem dueFence_none {ds : List Deferred} (h : (dueFence ds).1 = []) : (dueFence ds).2 = ds := by
  unfold dueFence at h ⊢
  split
  · simp_all
  · rfl

/-- R174, R179: where nothing is due the deferred commands stay in flight. -/
theorem due_none {u : State} (h : u.due.1 = []) : u.due.2 = u.deferred := by
  obtain ⟨hq, hf⟩ := List.append_eq_nil_iff.1 h
  exact (dueFence_none hf).trans (dueQuiesce_none hq)

/-- R136, R174, R179: a part that posts records has something to settle when something is due. -/
theorem needsSettle_iff_due {u : State} (hp : u.part = .running ∨ u.part = .stopping) :
    needsSettle u = true ↔ u.due.1 ≠ [] := by
  have running : needsSettle u = needsSettle { u with part := .running } := by
    rcases hp with h | h <;> simp only [needsSettle, h] <;> rfl
  rw [running]
  exact needsSettle_iff (u := { u with part := .running }) rfl

/-- R157, R159: an immediate completion, with what is due after it or before it. -/
theorem finishImmediate_due {u : State} {g : Geometry} (hp : u.part = .running ∨ u.part = .stopping)
    (hg : u.geom = some g) (kind : Byte) (tag : Word) (st : Status) (w1 w2 w3 : Word) :
    finishImmediate kind tag st w1 w2 w3 u = { u with
      geom := some (g.complete
        (if u.due.1 = [] then [.completion kind tag st w1 w2 w3]
         else if Config.deferredFirst u.choices then u.due.1 ++ [.completion kind tag st w1 w2 w3]
         else .completion kind tag st w1 w2 w3 :: u.due.1))
      deferred := u.due.2
      choices := if u.due.1 = [] then u.choices else u.choices + 1 } := by
  unfold finishImmediate
  by_cases hd : u.due.1 = []
  · have hn : ¬ needsSettle u = true := fun h => (needsSettle_iff_due hp).1 h hd
    rw [if_neg hn, handCompletion_complete, hg, if_pos hd, if_pos hd, due_none hd]
    rfl
  · rw [if_pos ((needsSettle_iff_due hp).2 hd), if_neg hd, if_neg hd]
    simp only [handCompletion_complete, settle_eq_settled, State.settled, if_pos hp, hg, Option.map_some,
      ← Geometry.complete_append]
    split <;> rfl

/-- R147: the read of the next command is issued when one waits and the reservation allows it. -/
theorem commandFetch_cmdRead {v : State} {g : Geometry} (hg : v.geom = some g) (he : v.executing = none) :
    commandFetch v = { v with cmdRead := v.cmdRead || (v.part == .running && g.cmd.consumer != g.cmd.producer
      && decide (v.deferred.length < g.compl.free)) } := by
  have hfetch : mayFetch v = (!v.cmdRead && (v.part == .running && g.cmd.consumer != g.cmd.producer
      && decide (v.deferred.length < g.compl.free))) := by
    simp only [mayFetch, hg, he, reservationAllows, Option.isNone_none, Bool.and_true]
    cases v.cmdRead <;> simp
  rw [commandFetch, hfetch]
  cases hr : v.cmdRead with
  | true =>
    simp only [Bool.not_true, Bool.false_and, Bool.false_eq_true, if_false, Bool.true_or]
    rw [← hr]
  | false =>
    simp only [Bool.not_false, Bool.true_and, Bool.false_or]
    split
    · rename_i h; rw [h]
    · rename_i h; rw [Bool.eq_false_iff.2 h, ← hr]

/-- R157: no command is read while one is under execution. -/
theorem commandFetch_executing {v : State} (h : v.executing ≠ none) : commandFetch v = v := by
  have hfetch : mayFetch v = false := by
    unfold mayFetch
    split
    · rfl
    · have : v.executing.isNone = false := by simpa [Option.isSome_iff_ne_none] using h
      simp [this]
  rw [commandFetch, hfetch]
  rfl

/-- R8, R161, R167: the commands that make several offers. -/
def MakesOffers : Command → Prop
  | .refresh _ => True
  | .routeSet f => f.refresh = 1
  | _ => False

/-- R161, R167: a set of offers that has come to its end completes, and the next read is issued. -/
theorem offersDone_eq {u : State} {g : Geometry} {w : OfferSet} (hp : u.part = .running ∨ u.part = .stopping)
    (hg : u.geom = some g) (he : u.executing = none) (hc : MakesOffers w.command) :
    commandFetch (answerCommand (Command.code w.command) w.tag w.answer u) = State.offersDone g w.record u := by
  have ends : ∀ (kind : Byte) (st : Status) (w1 w2 w3 : Word),
      commandFetch (finishImmediate kind w.tag st w1 w2 w3 u)
        = State.offersDone g (.completion kind w.tag st w1 w2 w3) u := by
    intro kind st w1 w2 w3
    rw [finishImmediate_due hp hg,
      commandFetch_cmdRead (v := { u with geom := some (g.complete _), deferred := _, choices := _ }) rfl he,
      State.offersDone, ← he]
    rfl
  obtain ⟨tag, command, lines, made, refused, closed⟩ := w
  cases command with
  | refresh set => exact ends _ _ _ _ _
  | routeSet f => exact ends _ _ _ _ _
  | _ => exact hc.elim

/-! #### A set begun, continued and ended -/

/-- R147, R157: a command whose execution waits after some of its offers is taken and stays under execution. -/
theorem runOffering_begun {s u : State} {g : Geometry} (r : Ready s g) {n : Nat} {tag : Word} {c : Command}
    {x : Execution} {w : OfferSet} (hp : u.part = .running)
    (hx : x (.others n) (s.taken g []) = (u.taken g [], .underWay w)) :
    runOffering (some n) tag c x s = { State.afterTake g [] u with cmdRead := false, executing := some w } := by
  simp only [runOffering, r.free, runCommand, fallsOf]
  rw [if_pos ⟨r.running, r.reading⟩, takeCommand_ready r, hx]
  simp only [answerCommand]
  rw [abortLeftovers_running (by exact hp), commandFetch_executing (Option.some_ne_none w)]
  rfl

/-- R8: the offers of a command just taken, before the wait. -/
theorem makeOffers_taken (g : Geometry) (tag : Word) (c : Command) (lines : List (Fin 16)) (n : Nat) (u : State) :
    makeOffers { tag := tag, command := c, lines := lines, made := 0, refused := 0, closed := false } (.others n)
        (u.taken g [])
      = ((u.stateEventsMade (u.acceptedLines (lines.take n))).taken g [], .underWay {
          tag := tag, command := c, lines := lines.drop n, made := (u.acceptedLines (lines.take n)).length
          refused := (lines.take n).length - (u.acceptedLines (lines.take n)).length
          closed := !u.intakeOpen && !(lines.take n).isEmpty }) := by
  simp only [makeOffers, advance_eq, OfferSet.afterOffers, Nat.zero_add, Bool.false_or]
  rfl

theorem ringPresent_taken {s : State} {g : Geometry} (hg : s.geom = some g) (ring : Fin 4) :
    ringPresent (s.taken g []) ring = ringPresent s ring := by
  unfold ringPresent
  rw [hg]
  rfl

/-- R80, R167: a REFRESH that waits after `n` offers. -/
theorem refresh_begun {s : State} {g : Geometry} (r : Ready s g) {set : Word} (hf : FieldsInRange s (.refresh set))
    (tag : Word) (n : Nat) :
    let lines := (List.finRange 16).filter fun n => set.getLsbD n.val = true ∧ s.inputs[n].config.mode ≠ .off
    runOffering (some n) tag (.refresh set) (refreshExecution tag set) s
      = { State.afterTake g [] (s.stateEventsMade (s.acceptedLines (lines.take n))) with
          cmdRead := false
          executing := some {
            tag := tag, command := .refresh set, lines := lines.drop n
            made := (s.acceptedLines (lines.take n)).length
            refused := (lines.take n).length - (s.acceptedLines (lines.take n)).length
            closed := !s.intakeOpen && !(lines.take n).isEmpty } } := by
  intro lines
  have hlines : refreshLines set (s.taken g []) = lines :=
    List.filter_congr fun n _ => by rw [Bool.eq_iff_iff]; simp [State.taken]
  refine runOffering_begun r r.running ?_
  rw [refreshExecution, if_pos ((refreshInRange_iff s set).2 hf), hlines, makeOffers_taken]

/-- R31, R80, R161: a ROUTE_SET with REFRESH replaces the entry, and waits after `n` offers. -/
theorem routeSet_begun {s : State} {g : Geometry} (r : Ready s g) {f : RouteSetFields}
    (hf : FieldsInRange s (.routeSet f)) (hr : f.refresh = 1) (tag : Word) (n : Nat) :
    let lines := (List.finRange 16).filter fun n =>
      s.inputs[n].config.mode ≠ .off ∧ s.inputs[n].config.source = f.source.setWidth 8
    runOffering (some n) tag (.routeSet f) (routeSetExecution tag f) s
      = { State.afterTake g [] ((replaceRoute f s).stateEventsMade (s.acceptedLines (lines.take n))) with
          cmdRead := false
          executing := some {
            tag := tag, command := .routeSet f, lines := lines.drop n
            made := (s.acceptedLines (lines.take n)).length
            refused := (lines.take n).length - (s.acceptedLines (lines.take n)).length
            closed := !s.intakeOpen && !(lines.take n).isEmpty } } := by
  intro lines
  have hlines : linesOfSource (sourceOf f.source) (s.taken g []) = lines :=
    List.filter_congr fun n _ => by rw [Bool.eq_iff_iff]; simp [State.taken, sourceOf]
  have hrange : routeSetInRange (s.taken g []) f = true := by
    rw [routeSetInRange_iff]
    simpa only [FieldsInRange, ringPresent_taken r.geom] using hf
  have hreplace : replaceRoute f (s.taken g []) = (replaceRoute f s).taken g [] := rfl
  refine runOffering_begun r (u := (replaceRoute f s).stateEventsMade (s.acceptedLines (lines.take n))) r.running ?_
  rw [routeSetExecution, if_pos hrange, if_pos hr, hlines, hreplace, makeOffers_taken]
  rfl

/-- R8: the row of the command under execution goes on with its offers. -/
theorem exec_takeUpTo_executing {s : State} {w : OfferSet} (he : s.executing = some w) (hc : MakesOffers w.command)
    (pause : Option Nat) : exec (takeUpTo pause w.tag w.command) s = .next (goOnOffering pause w s) := by
  have goesOn : ∀ (p : Option Nat) (x : Execution), runOffering p w.tag w.command x s = goOnOffering p w s := by
    intro p x
    simp only [runOffering, he, and_self, if_true]
  generalize hw : w.command = c at hc goesOn ⊢
  cases c with
  | refresh set => exact congrArg Host.Outcome.next (goesOn _ _)
  | routeSet f =>
    refine congrArg Host.Outcome.next ((goesOn _ _).trans ?_)
    rw [if_pos (show f.refresh = 1 from hc)]
  | _ => exact hc.elim

theorem goOnOffering_running {s : State} (hp : s.part = .running) (pause : Option Nat) (w : OfferSet) :
    let r := makeOffers w (fallsOf pause) { s with executing := none }
    goOnOffering pause w s = commandFetch (answerCommand (Command.code w.command) w.tag r.2 r.1) := by
  unfold goOnOffering
  split
  · rfl
  all_goals
    rename_i h
    rw [hp] at h
    cases h

theorem goOnOffering_some {s : State} (hp : s.part = .running) (w : OfferSet) (n : Nat) :
    goOnOffering (some n) w s
      = { s.stateEventsMade (s.acceptedLines (w.lines.take n)) with executing := some (w.afterOffers n s) } := by
  simp only [goOnOffering_running hp, makeOffers, fallsOf, advance_eq, answerCommand]
  rw [commandFetch_executing (Option.some_ne_none _)]
  rfl

theorem goOnOffering_all {s : State} {g : Geometry} (hp : s.part = .running) (hg : s.geom = some g) {w : OfferSet}
    (hc : MakesOffers w.command) :
    goOnOffering none w s = State.offersDone g (w.afterOffers w.lines.length s).record
      { s.stateEventsMade (s.acceptedLines w.lines) with executing := none } := by
  simp only [goOnOffering_running hp, makeOffers, fallsOf, advance_eq, List.take_length]
  exact offersDone_eq (w := w.afterOffers w.lines.length s) (.inl hp) hg rfl hc

theorem goOnOffering_stopping {s : State} {g : Geometry} (hp : s.part = .stopping) (hg : s.geom = some g)
    {w : OfferSet} (hc : MakesOffers w.command) (pause : Option Nat) :
    goOnOffering pause w s = State.offersDone g w.abandon.record s := by
  unfold goOnOffering
  split
  case h_2 => exact offersDone_eq (u := { s with executing := none }) (w := w.abandon) (.inr hp) hg rfl hc
  all_goals
    rename_i h
    rw [hp] at h
    cases h

/-- R160: in HALTED, and where no command runs, nothing more happens. -/
theorem goOnOffering_else {s : State} {w : OfferSet} (he : s.executing = some w) (hr : s.part ≠ .running)
    (hs : s.part ≠ .stopping) (pause : Option Nat) : goOnOffering pause w s = s := by
  have stays : commandFetch { s with executing := some w } = s := by
    rw [commandFetch_executing (Option.some_ne_none w), ← he]
  unfold goOnOffering
  split
  · exact absurd ‹_› hr
  · exact absurd ‹_› hs
  · exact stays
  · exact stays
  · exact stays

/-! #### The announce (R81; log entry 11) -/

theorem announceLine_part (n : Fin 16) (s : State) : (announceLine n s).part = s.part := by
  unfold announceLine
  split
  · rfl
  · split
    · rw [(offerState_only n s)]
    · rfl
    · rfl

/-- R8: the offers of one step are made one after another. -/
theorem announceNext_succ (k : Nat) (s : State) : announceNext (k + 1) s = announceNext k (announceNext 1 s) := by
  simp only [announceNext]
  split
  · rename_i h
    cases k with
    | zero => rfl
    | succ k => simp only [announceNext, h]
  · rfl

theorem announceNext_one_part (s : State) : (announceNext 1 s).part = s.part := by
  simp only [announceNext]
  split
  · rfl
  · exact announceLine_part _ _

theorem announceNext_one_cons {s : State} {n : Fin 16} {rest : List (Fin 16)} (h : s.announcing = n :: rest) :
    announceNext 1 s = announceLine n { s with announcing := rest } := by
  simp only [announceNext, h]

/-- R8, R79: further offers of an announce are made in RUNNING. -/
theorem exec_announce_running {s : State} (hp : s.part = .running) (number : Byte) (t1 t2 t3 : Quad)
    (pause : Option Nat) :
    exec (.rxEcho number t1 t2 t3 (.announce pause)) s = .next (announceNext (pause.getD s.announcing.length) s) :=
  congrArg Host.Outcome.next (if_pos hp)

theorem exec_announce_not_running {s : State} (hp : s.part ≠ .running) (number : Byte) (t1 t2 t3 : Quad)
    (pause : Option Nat) : exec (.rxEcho number t1 t2 t3 (.announce pause)) s = .next s :=
  congrArg Host.Outcome.next (if_neg hp)

theorem announceLine_off {s : State} {n : Fin 16} (h : s.inputs[n].config.mode = .off) : announceLine n s = s :=
  if_pos h

theorem announceLine_accepted {s : State} {n : Fin 16} (hm : s.inputs[n].config.mode ≠ .off)
    (h : offerAnswer s = .accepted) : announceLine n s = s.stateEventsMade [n] := by
  simp only [announceLine, h]
  rw [if_neg hm, offerState_accepted h]

theorem announceLine_full {s : State} {n : Fin 16} (hm : s.inputs[n].config.mode ≠ .off) (h : offerAnswer s = .full) :
    announceLine n s = loseToFull n s.inputs[n] s := by
  simp only [announceLine, h]
  rw [if_neg hm]

theorem announceLine_closed {s : State} {n : Fin 16} (hm : s.inputs[n].config.mode ≠ .off)
    (h : offerAnswer s = .closed) : announceLine n s = loseToClosed n s.inputs[n] s := by
  simp only [announceLine, h]
  rw [if_neg hm]

/-! #### Sets and announces parted -/

/-- Settles O42, part by part: a set begun, continued, ended, stopped and halted, and the announce. -/
theorem offersOfOneSetMayBeParted : Obligations.OffersOfOneSetMayBeParted := by
  refine ⟨fun s g tag set f n r => ⟨fun hf => ?_, fun hf hr => ?_⟩, fun s g w he hg hcommand => ?_,
    fun s number t1 t2 t3 hp => ?_, fun s number t1 t2 t3 pause hp => exec_announce_not_running hp _ _ _ _ _⟩
  · exact congrArg Host.Outcome.next (refresh_begun r hf tag n)
  · refine congrArg Host.Outcome.next (Eq.trans ?_ (routeSet_begun r hf hr tag n))
    rw [if_pos hr]
  · have hc : MakesOffers w.command := by
      rcases hcommand with ⟨set, h⟩ | ⟨f, h, hr⟩
      · rw [h]; trivial
      · rw [h]; exact hr
    have goesOn := exec_takeUpTo_executing he hc
    refine ⟨fun n hp => ?_, fun hp => ?_, fun pause hp => ?_, fun pause hr hs => ?_⟩
    · rw [goesOn, goOnOffering_some hp]; rfl
    · rw [goesOn, goOnOffering_all hp hg hc]; rfl
    · rw [goesOn, goOnOffering_stopping hp hg hc]; rfl
    · rw [goesOn, goOnOffering_else he hr hs]
  · intro offers
    have one : ∀ u : State, u.part = .running → exec (.rxEcho number t1 t2 t3 (.announce (some 1))) u
        = .next (announceNext 1 u) := fun u hu => exec_announce_running hu _ _ _ _ _
    refine ⟨fun n rest ha => ?_, fun k t ht => ?_, rfl, fun ha => ?_, exec_announce_running hp _ _ _ _ _⟩
    · intro l v
      have turn : offers (some 1) s = .next (announceLine n v) :=
        (one s hp).trans (congrArg Host.Outcome.next (announceNext_one_cons ha))
      refine ⟨fun hm => ?_, fun hm hopen hroom => ?_, fun hm hopen hfull => ?_, fun hm hclosed => ?_⟩
      · exact turn.trans (congrArg _ (announceLine_off (s := v) hm))
      · have accepts := (offerAnswer_accepted_iff v).2 ⟨hopen, hroom⟩
        exact turn.trans (congrArg _ (announceLine_accepted (s := v) hm accepts))
      · exact turn.trans (congrArg _ (announceLine_full (s := v) hm ((offerAnswer_full_iff v).2 ⟨hopen, hfull⟩)))
      · exact turn.trans (congrArg _ (announceLine_closed (s := v) hm ((offerAnswer_closed_iff v).2 hclosed)))
    · cases (one s hp).symm.trans ht
      have hpart := (announceNext_one_part s).trans hp
      calc offers (some (k + 1)) s = .next (announceNext (k + 1) s) := exec_announce_running hp _ _ _ _ _
        _ = .next (announceNext k (announceNext 1 s)) := by rw [announceNext_succ]
        _ = offers (some k) (announceNext 1 s) := (exec_announce_running hpart number t1 t2 t3 (some k)).symm
    · exact (one s hp).trans (congrArg _ (by simp only [announceNext, ha]))

end Sys2Proof.Machine
end

section
/-! PROOFS. The Route Table: the commands that write an entry (O24), the STATE events a ROUTE_SET or a REFRESH offers in
one step (O25), the Router's forward onto the span link (O39) and its decision, made in one step (O40) or in parts (O41),
and the settings, which no other step changes (O11). -/

namespace Sys2Proof.Machine

/-! ### ROUTE_SET and ROUTE_CLEAR (R31, R33, R50, R161, R162) -/

/-- R14: a source ID in a command field names the entry of its low byte. -/
theorem routeIndex_sourceOf (source : Half) :
    routeIndex (sourceOf source) = ⟨source.toNat % 256, Nat.mod_lt _ (by decide)⟩ :=
  Fin.ext (by simp [routeIndex, sourceOf])

theorem setRoute_sourceOf (source : Half) (r : RouteEntry) (s : State) : setRoute (sourceOf source) r s
    = { s with routes := s.routes.set (source.toNat % 256) r (Nat.mod_lt _ (by decide)) } := by
  simp only [setRoute, routeIndex_sourceOf]

theorem routeOf_sourceOf (source : Half) (s : State) :
    routeOf s (sourceOf source) = s.routes[source.toNat % 256]'(Nat.mod_lt _ (by decide)) := by
  simp only [routeOf, routeIndex_sourceOf, Fin.getElem_fin]

/-- R147: a command that is taken and makes all of its offers in one step. -/
theorem runOffering_taken {s : State} {g : Geometry} (r : Ready s g) (tag : Word) (c : Command) (x : Execution) :
    runOffering none tag c x s = runCommand .nothing (Command.code c) tag x s := by
  simp only [runOffering, r.free, fallsOf]

/-- R161: the range check of a ROUTE_SET is made on the geometry as it stood before the take. -/
theorem routeSetInRange_taken {s : State} {g : Geometry} (r : Ready s g) {f : RouteSetFields}
    (hf : FieldsInRange s (.routeSet f)) : routeSetInRange (s.taken g []) f = true := by
  rw [routeSetInRange_iff]
  simpa only [FieldsInRange, ringPresent_taken r.geom] using hf

/-- R31, R161: a ROUTE_SET without REFRESH completes OK with the entry replaced. -/
theorem routeSet_done {s : State} {g : Geometry} (r : Ready s g) {f : RouteSetFields}
    (hf : FieldsInRange s (.routeSet f)) (hr : f.refresh = 0) (tag : Word) (pause : Option Nat) :
    exec (.routeSet tag f pause) s
      = .next (State.commandDone g [] (.completion 0x01 tag .ok 0 0 0) (replaceRoute f s)) := by
  have once : f.refresh ≠ 1 := by rw [hr]; decide
  have executed : routeSetExecution tag f .nothing (s.taken g [])
      = ((replaceRoute f s).taken g [], .done .ok 0 0 0) := by
    rw [routeSetExecution, if_pos (routeSetInRange_taken r hf), if_neg once]
    rfl
  have done := runCommand_commandDone r (kind := 0x01) (tag := tag) (u := replaceRoute f s) r.running r.free executed
  refine congrArg Host.Outcome.next (Eq.trans ?_ done)
  rw [if_neg once, runOffering_taken r]
  rfl

/-- R33, R50, R162: a ROUTE_CLEAR completes OK with the entry cleared, and the Hold Queue purged where PURGE says so. -/
theorem routeClear_done {s : State} {g : Geometry} (r : Ready s g) {f : RouteClearFields}
    (hf : FieldsInRange s (.routeClear f)) (tag : Word) :
    let cleared := clearRoute (sourceOf f.source) s
    let u := if f.purge = 1 then purge (sourceOf f.source) cleared else cleared
    exec (.routeClear tag f) s = .next (u.commandDone g []
      (.completion 0x02 tag .ok (BitVec.ofNat 32 (s.hold.length - u.hold.length)) 0 0)) := by
  intro cleared u
  have hu : u.part = s.part ∧ u.executing = s.executing := by
    simp only [u]
    split <;> exact ⟨rfl, rfl⟩
  refine congrArg Host.Outcome.next (runCommand_commandDone r (hu.1.trans r.running) (hu.2.trans r.free) ?_)
  simp only [routeClearExecution, whole, (routeClearInRange_iff s f).2 hf, if_true, u]
  split
  · rfl
  · simp only [cleared, clearRoute, setRoute_hold, Nat.sub_self]
    rfl

/-- R50: the entries a purge leaves are those of other source IDs. -/
theorem purge_sourceOf (source : Half) (s : State) :
    let kept := s.hold.filter fun e => e.event.source.toNat ≠ source.toNat % 256
    purge (sourceOf source) s = { s with
      hold := kept
      holdCounters := { s.holdCounters with
        purged := bumpBy (s.hold.length - kept.length) s.holdCounters.purged } } := by
  intro kept
  have same : (s.hold.filter fun e => e.event.source != sourceOf source) = kept :=
    List.filter_congr fun e _ => by
      rw [Bool.eq_iff_iff]
      simp [sourceOf, ← BitVec.toNat_inj]
  simp only [purge, same]

/-- Settles O24: the entry that ROUTE_SET and ROUTE_CLEAR leave (`routeSet_done`, `routeClear_done`). -/
theorem routeSetAndClearWriteEntry : Obligations.RouteSetAndClearWriteEntry := by
  refine ⟨fun s g tag f pause r hf hr => ?_, fun s g tag f r hf => ?_⟩
  · rw [routeSet_done r hf hr, replaceRoute, setRoute_sourceOf]
    rfl
  · intro i hi cleared kept removed
    have hclear : clearRoute (sourceOf f.source) s = cleared := by
      rw [clearRoute, setRoute_sourceOf, routeOf_sourceOf]
      rfl
    have done := routeClear_done r hf tag
    simp only [hclear, purge_sourceOf] at done
    refine ⟨fun hp => ?_, fun hp => ?_⟩
    · rw [done, if_neg (by rw [hp]; decide), show s.hold.length - cleared.hold.length = 0 from Nat.sub_self _]
      rfl
    · rw [done, if_pos hp]

/-! ### STATE events offered in one step (R31, R79, R80, R161, R167) -/

/-- R8: the set of offers of a command just taken, none made yet. -/
def OfferSet.start (tag : Word) (c : Command) (lines : List (Fin 16)) : OfferSet :=
  { tag := tag, command := c, lines := lines, made := 0, refused := 0, closed := false }

/-- R80: a command just taken makes its offers one after another, and ends with its answer on all of them. -/
theorem makeOffers_all_taken (g : Geometry) (w : OfferSet) (u : State) :
    makeOffers w .nothing (u.taken g [])
      = ((u.stateEventsMade (u.acceptedLines w.lines)).taken g [], (w.afterOffers w.lines.length u).answer) := by
  simp only [makeOffers, advance_eq, List.take_length]
  rfl

/-- R161, R167: whether the refusals of a set met a CLOSED intake. -/
theorem start_afterOffers_closed (tag : Word) (c : Command) (lines : List (Fin 16)) (u : State) :
    ((OfferSet.start tag c lines).afterOffers lines.length u).closed = true ↔ u.intakeOpen = false ∧ lines ≠ [] := by
  simp [OfferSet.afterOffers, OfferSet.start]

/-- R167: the answer of a REFRESH whose offers are all made in `u`. -/
theorem start_answer_refresh (tag set : Word) (lines : List (Fin 16)) (u : State) :
    ((OfferSet.start tag (.refresh set) lines).afterOffers lines.length u).answer
      = .done (if u.intakeOpen = false ∧ lines ≠ [] then .closed else .ok)
          (BitVec.ofNat 32 (u.acceptedLines lines).length)
          (BitVec.ofNat 32 (lines.length - (u.acceptedLines lines).length)) 0 := by
  simp only [← start_afterOffers_closed tag (.refresh set)]
  simp [OfferSet.afterOffers, OfferSet.start, OfferSet.answer]

/-- R161: the answer of a ROUTE_SET with REFRESH whose offers are all made in `u`. -/
theorem start_answer_routeSet (tag : Word) (f : RouteSetFields) (lines : List (Fin 16)) (u : State) :
    ((OfferSet.start tag (.routeSet f) lines).afterOffers lines.length u).answer
      = .done .ok (BitVec.ofNat 32 (u.acceptedLines lines).length)
          (BitVec.ofNat 32 (lines.length - (u.acceptedLines lines).length))
          (if u.intakeOpen = false ∧ lines ≠ [] then 1 else 0) := by
  simp only [← start_afterOffers_closed tag (.routeSet f)]
  simp [OfferSet.afterOffers, OfferSet.start, OfferSet.answer]

/-- R31, R80: the lines a ROUTE_SET with REFRESH states, in the words of the statements. -/
theorem linesOfSource_taken (source : Half) (g : Geometry) (s : State) :
    linesOfSource (sourceOf source) (s.taken g []) = (List.finRange 16).filter fun n =>
      s.inputs[n].config.mode ≠ .off ∧ s.inputs[n].config.source = source.setWidth 8 :=
  List.filter_congr fun n _ => by rw [Bool.eq_iff_iff]; simp [State.taken, sourceOf]

/-- R80: the lines a REFRESH states, in the words of the statements. -/
theorem refreshLines_taken (set : Word) (g : Geometry) (s : State) :
    refreshLines set (s.taken g []) = (List.finRange 16).filter fun n =>
      set.getLsbD n.val = true ∧ s.inputs[n].config.mode ≠ .off :=
  List.filter_congr fun n _ => by rw [Bool.eq_iff_iff]; simp [State.taken]

/-- Settles O25: all offers of the set are made in the execution (`makeOffers_all_taken`), and its answer says how the
intake took them. -/
theorem refreshesStateLines : Obligations.RefreshesStateLines := by
  refine ⟨fun s g tag f r hf hr => ?_, fun s g tag set r hf => ?_⟩
  · intro lines made u
    have executed : routeSetExecution tag f .nothing (s.taken g [])
        = (u.taken g [], ((OfferSet.start tag (.routeSet f) lines).afterOffers lines.length s).answer) := by
      rw [routeSetExecution, if_pos (routeSetInRange_taken r hf), if_pos hr, linesOfSource_taken]
      exact makeOffers_all_taken g (OfferSet.start tag (.routeSet f) lines) (replaceRoute f s)
    rw [start_answer_routeSet] at executed
    have done := runCommand_commandDone r (kind := 0x01) (tag := tag) (u := u) r.running r.free executed
    refine congrArg Host.Outcome.next (Eq.trans ?_ done)
    rw [if_pos hr, runOffering_taken r]
    rfl
  · intro lines made
    have executed : refreshExecution tag set .nothing (s.taken g [])
        = ((s.stateEventsMade made).taken g [],
            ((OfferSet.start tag (.refresh set) lines).afterOffers lines.length s).answer) := by
      rw [refreshExecution, if_pos ((refreshInRange_iff s set).2 hf), refreshLines_taken]
      exact makeOffers_all_taken g (OfferSet.start tag (.refresh set) lines) s
    rw [start_answer_refresh] at executed
    have done := runCommand_commandDone r (kind := 0x0A) (tag := tag) (u := s.stateEventsMade made) r.running r.free
      executed
    refine congrArg Host.Outcome.next (Eq.trans ?_ done)
    rw [runOffering_taken r]
    rfl

/-! ### The link forward (R22, R23, R56, R121, R124) -/

/-- R121: with no frame waiting the window stays as it is. -/
theorem enterWindow_none {l : Link} (h : l.waiting = []) (room : Nat) : enterWindow room l = l := by
  cases room with
  | zero => rfl
  | succ n => simp only [enterWindow, h]

/-- R121, R124: with no frame waiting and a free place, a frame enters the window at once, and starts the ack timer of
an empty window. -/
theorem enqueue_enters {l : Link} (hw : l.waiting = []) (hroom : l.window.length < 16) (e : TxEvent) :
    l.enqueue e = { l with
      window := l.window ++ [windowFrameOf l.nextSeq e]
      nextSeq := l.nextSeq + 1
      ackTimer := if l.window = [] then some 0 else l.ackTimer } := by
  have room : Config.windowCapacity - l.window.length = (15 - l.window.length) + 1 := by
    rw [show Config.windowCapacity = 16 from rfl]
    omega
  have entered : Link.fillWindow { l with waiting := l.waiting ++ [e] }
      = { l with window := l.window ++ [windowFrameOf l.nextSeq e], nextSeq := l.nextSeq + 1 } := by
    simp only [Link.fillWindow, room, hw, List.nil_append, enterWindow]
    rw [enterWindow_none rfl, ← hw]
  simp only [Link.enqueue, entered]
  by_cases hempty : l.window = []
  · simp [hempty]
  · simp [hempty]

/-- R121: a frame waits behind a full window. -/
theorem enqueue_waits {l : Link} (hfull : l.window.length = 16) (e : TxEvent) :
    l.enqueue e = { l with waiting := l.waiting ++ [e] } := by
  have noRoom : Config.windowCapacity - l.window.length = 0 := by rw [hfull]; rfl
  have stays : Link.fillWindow { l with waiting := l.waiting ++ [e] } = { l with waiting := l.waiting ++ [e] } := by
    simp only [Link.fillWindow, noRoom, enterWindow]
  have held : l.window.isEmpty = false := by
    rw [List.isEmpty_eq_false_iff]
    intro h
    rw [h] at hfull
    cases hfull
  simp only [Link.enqueue, stays, held, Bool.false_and, Bool.false_eq_true, if_false]

/-- R23, R56: a QUEUED event. -/
theorem forward_queued {s : State} {e : Event} (hup : s.link.session = .up)
    (hroom : s.link.queueDepth < Config.transmitCapacity) :
    forward e s = { countRoute e.source (fun c => { c with linkSent := bump c.linkSent }) s with
      tags := (markForwarded e.origin s).tags, link := s.link.enqueue (txEventOf e) } := by
  have answer : s.link.enqueueAnswer = .queued := by
    rw [Link.enqueueAnswer, if_pos hup, if_pos hroom]
  simp only [forward, answer]
  cases e.origin <;> rfl

/-- R23: an event that finds the transmit queue full. -/
theorem forward_full {s : State} {e : Event} (hup : s.link.session = .up)
    (hfull : Config.transmitCapacity ≤ s.link.queueDepth) :
    forward e s = raiseFault .linkBacklog (sourceContext e.source)
      (countRoute e.source (fun c => { c with linkDropped := bump c.linkDropped }) s) := by
  have answer : s.link.enqueueAnswer = .full := by
    rw [Link.enqueueAnswer, if_pos hup, if_neg (Nat.not_lt.2 hfull)]
  simp only [forward, answer]

/-- R23: an event that finds the session not UP. -/
theorem forward_notUp {s : State} {e : Event} (hup : s.link.session ≠ .up) :
    forward e s = countRoute e.source (fun c => { c with linkDropped := bump c.linkDropped }) s := by
  have answer : s.link.enqueueAnswer = .notUp := by rw [Link.enqueueAnswer, if_neg hup]
  simp only [forward, answer]

/-- R56: the tag memory after a QUEUED event, in the words of the statements. -/
theorem markForwarded_tags (o : Origin) (s : State) : (markForwarded o s).tags = match o with
    | .host tag => s.tags.map fun r => if r.tag = tag then { r with forwarded := true } else r
    | .line _ => s.tags
    | .link => s.tags := by
  cases o with
  | host tag => simp only [markForwarded, tagsAfterForward, beq_iff_eq]
  | line n => rfl
  | link => rfl

/-- R120, R121: a sound link whose window has room has no frame waiting. -/
theorem Link.Sound.waiting_nil {l : Link} (h : l.Sound) (hroom : l.window.length < 16) : l.waiting = [] := by
  by_contra hw
  have := h.waiting hw
  rw [show Config.windowCapacity = 16 from rfl] at this
  omega

/-- Settles O39: the enqueue request answers by the session and the depth of the queue, and the frame enters a window
with room (`enqueue_enters`) or waits (`enqueue_waits`). -/
theorem forwardQueuesOrDropsFrame : Obligations.ForwardQueuesOrDropsFrame := by
  intro s e l entry counted frame sent dropped tags
  have htags : (markForwarded e.origin s).tags = tags := markForwarded_tags e.origin s
  refine ⟨fun hup hsound hroom => ?_, fun hup hfull hroom => ?_, fun hup hfull => ?_, fun hup => ?_⟩
  · have hw := hsound.waiting_nil hroom
    have depth : s.link.queueDepth < Config.transmitCapacity := by
      simp only [Link.queueDepth, show s.link.waiting = [] from hw, List.length_nil]
      exact Nat.lt_of_lt_of_le hroom (by decide)
    rw [forward_queued hup depth, htags, enqueue_enters hw hroom]
    rfl
  · have depth : s.link.queueDepth < Config.transmitCapacity := Nat.add_lt_add_of_le_of_lt (Nat.le_of_eq hfull) hroom
    rw [forward_queued hup depth, htags, enqueue_waits hfull]
    rfl
  · exact forward_full hup hfull
  · exact forward_notUp hup

/-! ### The Router's decision on an event it routes (R19 to R28, R38, R59) -/

/-- R38: in a queue in order a new entry stands behind those of an R no later, and before the others. -/
theorem holdInsert_eq_filter (h : HoldEntry) {hs : List HoldEntry}
    (sorted : (hs.map HoldEntry.release).Pairwise (· ≤ ·)) :
    holdInsert h hs = hs.filter (fun x => x.release ≤ h.release) ++ [h]
      ++ hs.filter (fun x => h.release < x.release) := by
  induction hs with
  | nil => rfl
  | cons x xs ih =>
    obtain ⟨least, rest⟩ := List.pairwise_cons.1 sorted
    by_cases hx : x.release ≤ h.release
    · simp only [holdInsert, if_pos hx, ih rest, List.filter_cons, decide_eq_true_eq, Nat.not_lt.2 hx, if_false,
        List.cons_append]
    · have later : ∀ y ∈ x :: xs, h.release < y.release := by
        intro y hy
        rcases List.mem_cons.1 hy with rfl | hy
        · omega
        · have := least _ (List.mem_map_of_mem hy)
          omega
      have none : (x :: xs).filter (fun y => decide (y.release ≤ h.release)) = [] :=
        List.filter_eq_nil_iff.2 fun y hy => by simpa using later y hy
      have all : (x :: xs).filter (fun y => decide (h.release < y.release)) = x :: xs :=
        List.filter_eq_self.2 fun y hy => by simpa using later y hy
      rw [none, all, holdInsert, if_neg hx]
      rfl

theorem insertHold_room {h : HoldEntry} {s : State} (hroom : s.hold.length < Config.holdCapacity) :
    insertHold h s = { s with
      hold := holdInsert h s.hold
      holdCounters := { s.holdCounters with
        inserted := bump s.holdCounters.inserted, peak := max s.holdCounters.peak (s.hold.length + 1) } } := by
  rw [insertHold, if_pos hroom]
  simp only [holdInsert_length]

theorem insertHold_full {h : HoldEntry} {s : State} (hfull : Config.holdCapacity ≤ s.hold.length) :
    insertHold h s = raiseFault .holdFull (sourceContext h.event.source)
      (countRoute h.event.source (fun c => { c with holdDropped := bump c.holdDropped }) s) := by
  rw [insertHold, if_neg (Nat.not_lt.2 hfull)]

section
variable {c : RouteConfig} {e : Event} {outputs : BitVec 16} {rings : BitVec 4} {s : State}

theorem releaseTime_aligned (h : e.flags.unaligned = false) (now : Nat) :
    releaseTime c e now = e.capture + c.latency.toNat := by simp [releaseTime, h]

/-- R25: the outcome by the release time and the latency. -/
theorem outcomeOf_aligned (h : e.flags.unaligned = false) (now : Nat) : outcomeOf c e now
    = if now < e.capture + c.latency.toNat then .held else if c.latency = 0 then .immediate else .late := by
  rw [outcomeOf, releaseTime_aligned h, if_neg (by simp [h])]

/-- R25: an UNALIGNED event is released now. -/
theorem decideOutcome_unaligned (h : e.flags.unaligned = true) : decideOutcome c e outputs rings s
    = { s with handover := some ⟨e, outputs, rings, s.localTime, false⟩ } := by
  simp only [decideOutcome, outcomeOf, releaseTime, h, if_true]

/-- R25: with R reached and L = 0 an event is handed over. -/
theorem decideOutcome_immediate (h : e.flags.unaligned = false) (hdue : e.capture + c.latency.toNat ≤ s.localTime)
    (hl : c.latency = 0) : decideOutcome c e outputs rings s
      = { s with handover := some ⟨e, outputs, rings, e.capture + c.latency.toNat, false⟩ } := by
  have outcome : outcomeOf c e s.localTime = .immediate := by
    rw [outcomeOf_aligned h, if_neg (Nat.not_lt.2 hdue), if_pos hl]
  simp only [decideOutcome, outcome, releaseTime_aligned h]

/-- R25, R26: with R reached and L > 0 an event is late, and the entry's policy says what becomes of it. -/
theorem decideOutcome_late (h : e.flags.unaligned = false) (hdue : e.capture + c.latency.toNat ≤ s.localTime)
    (hl : c.latency ≠ 0) :
    let late := raiseFault .deadline (sourceContext e.source) s
    (c.late = .deliverLate → decideOutcome c e outputs rings s
      = { countRoute e.source (fun k => { k with lateDelivered := bump k.lateDelivered }) late with
          handover := some ⟨e, outputs, rings, e.capture + c.latency.toNat, true⟩ })
    ∧ (c.late = .discard → decideOutcome c e outputs rings s
      = countRoute e.source (fun k => { k with lateDiscarded := bump k.lateDiscarded }) late) := by
  have outcome : outcomeOf c e s.localTime = .late := by
    rw [outcomeOf_aligned h, if_neg (Nat.not_lt.2 hdue), if_neg hl]
  refine ⟨fun hpolicy => ?_, fun hpolicy => ?_⟩
  · simp only [decideOutcome, outcome, releaseTime_aligned h, hpolicy]
  · simp only [decideOutcome, outcome, hpolicy]

/-- R25, R28: with R in the future an event is to be held. -/
theorem decideOutcome_held (h : e.flags.unaligned = false) (hdue : s.localTime < e.capture + c.latency.toNat) :
    decideOutcome c e outputs rings s = insertHold ⟨e.capture + c.latency.toNat, e, outputs, rings⟩ s := by
  have outcome : outcomeOf c e s.localTime = .held := by rw [outcomeOf_aligned h, if_pos hdue]
  simp only [decideOutcome, outcome, releaseTime_aligned h]

/-- R24 to R28, R38, R59: what holds of the state that the local part of the decision leaves, with what is due handed
over, is the local outcome of the event. -/
theorem localOutcome_of_decideLocal {answers : State → Prop} (h : answers (decideLocal c e s).settled) :
    LocalOutcome c e s answers := by
  unfold LocalOutcome
  intro entry counted rings due handed context
  refine ⟨fun hnone => ?_, fun hsome => ?_⟩
  · rwa [decideLocal, if_pos hnone] at h
  rw [decideLocal, if_neg hsome] at h
  refine ⟨fun hu => ?_, fun hu hdue hl => ?_, fun hu hdue hl hpolicy => ?_, fun hu hdue hl hpolicy => ?_,
    fun hu hdue hroom hsorted => ?_, fun hu hdue hfull => ?_⟩
  · rwa [decideOutcome_unaligned hu] at h
  · rwa [decideOutcome_immediate hu hdue hl] at h
  · rw [(decideOutcome_late hu hdue hl).1 hpolicy] at h
    exact h
  · rw [(decideOutcome_late hu hdue hl).2 hpolicy] at h
    exact h
  · rwa [decideOutcome_held hu hdue, insertHold_room hroom, holdInsert_eq_filter _ hsorted] at h
  · rw [decideOutcome_held hu hdue, insertHold_full hfull] at h
    exact h

end

/-- R20: the event after pulse conversion, in the words of the statements. -/
def RouteConfig.converted (c : RouteConfig) (e : Event) : Event :=
  if e.kind = .rise ∧ c.width ≠ 0 then { e with kind := .pulse c.width } else e

theorem converted_source (c : RouteConfig) (e : Event) : (c.converted e).source = e.source := by
  unfold RouteConfig.converted
  split <;> rfl

/-- R20: the kind a reading converts to, where it consumes no FALL. -/
theorem convert_routed {c : RouteConfig} {e : Event} (h : ¬ (e.kind = .fall ∧ c.width ≠ 0)) :
    ∃ kind, c.convert e.kind = some kind ∧ { e with kind := kind } = c.converted e := by
  unfold RouteConfig.converted
  by_cases hw : c.width = 0
  · refine ⟨e.kind, if_pos hw, ?_⟩
    rw [if_neg fun hr => hr.2 hw]
  · unfold RouteConfig.convert
    rw [if_neg hw]
    by_cases hr : e.kind = .rise
    · refine ⟨.pulse c.width, ?_, ?_⟩
      · rw [hr]
      · rw [if_pos ⟨hr, hw⟩]
    · refine ⟨e.kind, ?_, ?_⟩
      · split
        · exact absurd ‹_› hr
        · exact absurd ⟨‹_›, hw⟩ h
        all_goals
          rename_i hk
          rw [hk]
      · rw [if_neg fun hr' => hr hr'.1]

/-- R22: the condition of the link forward, in the words of the statements. -/
theorem forwardPart_eq (c : RouteConfig) (e : Event) (s : State) :
    forwardPart c e s = if c.forward = true ∧ e.origin ≠ .link then forward e s else s := by
  have horigin : e.origin.forwards = true ↔ e.origin ≠ .link := by cases e.origin <;> simp [Origin.forwards]
  simp only [forwardPart, Bool.and_eq_true, horigin]

/-- R18, R41: the Router goes on with the decision under way. -/
theorem routerTake_resumes {s : State} {d : Deciding} (hp : s.part = .running) (hh : s.handover = none)
    (hd : s.deciding = some d) (pause : Option DecisionStage) :
    routerTake pause s = (resumeDecision pause d { s with deciding := none }).settled := by
  simp only [routerTake, hp, hd, hh, and_self, if_true, settle_eq_settled]

/-- R18: where an entry is not UNUSED at the lookup, the decision is on its reading. -/
theorem lookup_used {s : State} {e : Event} (h : (routeOf s e.source).state ≠ .unused) :
    lookup e s = some
      ⟨e, decide ((routeOf s e.source).state = .suspended), (routeOf s e.source).config, .lookedUp⟩ := by
  cases hs : (routeOf s e.source).state with
  | unused => exact absurd hs h
  | suspended => simp only [lookup, hs, decide_true]
  | active => simp only [lookup, hs, reduceCtorEq, decide_false]

/-- R18: a decision that waits at its stage. -/
theorem Deciding.reach_waits {d : Deciding} {pause : Option DecisionStage} (h : pause = some d.stage)
    (run : State → State) (s : State) : d.reach pause run s = { s with deciding := some d } := if_pos h

/-- R18: a decision that goes on past its stage. -/
theorem Deciding.reach_passes {d : Deciding} {pause : Option DecisionStage} (h : pause ≠ some d.stage)
    (run : State → State) (s : State) : d.reach pause run s = run s := if_neg h

/-- R19: the reading of an ACTIVE entry that does not accept the kind, or consumes the FALL. -/
theorem decideReading_filtered {d : Deciding} (hs : d.suspended = false)
    (hf : ¬ d.config.accepts d.event.kind = true ∨ d.event.kind = .fall ∧ d.config.width ≠ 0)
    (pause : Option DecisionStage) (s : State) : decideReading pause d s
      = countRoute d.event.source (fun c => { c with filtered := bump c.filtered }) s := by
  simp only [decideReading, hs, Bool.false_eq_true, if_false]
  rcases hf with hf | ⟨hk, hw⟩
  · rw [if_neg hf]
  · rw [hk, convert_fall hw]
    split <;> rfl

/-- R19, R20: the reading of an ACTIVE entry that accepts the kind routes the event, its kind converted. -/
theorem decideReading_routed {d : Deciding} (hs : d.suspended = false) (ha : d.config.accepts d.event.kind = true)
    (hc : ¬ (d.event.kind = .fall ∧ d.config.width ≠ 0)) (pause : Option DecisionStage) (s : State) :
    decideReading pause d s = routeEvent pause { d with event := d.config.converted d.event } s := by
  obtain ⟨kind, hkind, hevent⟩ := convert_routed hc
  simp only [decideReading, hs, Bool.false_eq_true, if_false, ha, if_true, hkind, hevent]

/-- R22 to R28: past the link forward, the decision goes on to the local destinations. -/
theorem decideForward_passes {pause : Option DecisionStage} (h : pause ≠ some .forwarded) (d : Deciding) (s : State) :
    decideForward pause d s = decideLocal d.config d.event (forwardPart d.config d.event s) :=
  Deciding.reach_passes h _ _

/-- R20 to R28: a routed event whose decision does not wait. -/
theorem decideReading_local {d : Deciding} (hs : d.suspended = false) (ha : d.config.accepts d.event.kind = true)
    (hc : ¬ (d.event.kind = .fall ∧ d.config.width ≠ 0)) {pause : Option DecisionStage} (h1 : pause ≠ some .counted)
    (h2 : pause ≠ some .forwarded) (s : State) :
    let e := d.config.converted d.event
    decideReading pause d s = decideLocal d.config e (forwardPart d.config e
      (countRoute d.event.source (fun k => { k with routed := bump k.routed }) s)) := by
  intro e
  rw [decideReading_routed hs ha hc, routeEvent, Deciding.reach_passes h1, decideForward_passes h2, converted_source]

/-- R18: an event whose entry is not UNUSED at the lookup, and whose decision does not wait there. -/
theorem decideEvent_used {s : State} {e : Event} (h : (routeOf s e.source).state ≠ .unused)
    {pause : Option DecisionStage} (hpause : pause ≠ some .lookedUp) :
    decideEvent pause e s = decideReading pause
      ⟨e, decide ((routeOf s e.source).state = .suspended), (routeOf s e.source).config, .lookedUp⟩ s := by
  simp only [decideEvent, lookup_used h]
  exact Deciding.reach_passes hpause _ _

/-- Settles O40: the decision runs through its stages (`decideReading_local`), and its local part has the outcome of
`localOutcome_of_decideLocal`. -/
theorem routerDecidesRoutedEvents : Obligations.RouterDecidesRoutedEvents := by
  intro s e0 rest source entry c e routed u hp hd hh hi hactive haccepts hkept
  refine localOutcome_of_decideLocal (c := c) (e := e) (s := u) (congrArg Host.Outcome.next ?_)
  have hstate : (routeOf { s with intake := rest } e0.source).state = .active := hactive
  have used : (routeOf { s with intake := rest } e0.source).state ≠ .unused := by simp [hstate]
  have reads : decideEvent none e0 { s with intake := rest }
      = decideReading none ⟨e0, false, c, .lookedUp⟩ { s with intake := rest } := by
    rw [decideEvent_used used (by simp), hstate]
    rfl
  rw [routerTake_takes hp hd hh hi, reads,
    decideReading_local (d := ⟨e0, false, c, .lookedUp⟩) rfl haccepts hkept (by simp) (by simp), forwardPart_eq]
  rfl

/-! ### The decision in parts (R18, R32, R33, R39, R50) -/

/-- R18: a decision that waits at its lookup goes on as one that does not wait there. -/
theorem routerTake_lookedUp {s : State} {e : Event} {rest : List Event} (hp : s.part = .running)
    (hd : s.deciding = none) (hh : s.handover = none) (hi : s.intake = e :: rest)
    (used : (routeOf s e.source).state ≠ .unused) :
    let reading : Deciding :=
      ⟨e, decide ((routeOf s e.source).state = .suspended), (routeOf s e.source).config, .lookedUp⟩
    let lookedUp : State := { s with intake := rest, deciding := some reading }
    routerTake (some .lookedUp) s = lookedUp.settled
      ∧ ∀ pause, pause ≠ some .lookedUp → routerTake pause s = routerTake pause lookedUp := by
  intro reading lookedUp
  refine ⟨?_, fun pause hpause => ?_⟩
  · rw [routerTake_takes hp hd hh hi]
    simp only [decideEvent, lookup_used (s := { s with intake := rest }) used]
    rfl
  · have free : ({ lookedUp with deciding := none } : State) = { s with intake := rest } := by
      simp only [lookedUp, ← hd]
    rw [routerTake_takes hp hd hh hi, decideEvent_used (s := { s with intake := rest }) used hpause,
      routerTake_resumes (s := lookedUp) (d := reading) hp hh rfl, free]
    rfl

/-- Settles O41: each stage of the decision under way (`resumeDecision`) goes on from its reading, and waits or ends as
the decision in one step does. -/
theorem routerDecisionMayWait : Obligations.RouterDecisionMayWait := by
  refine ⟨fun s e rest => ?_, fun s d pause hp hh hd => ?_⟩
  · intro entry lookedUp hp hd hh hi used
    obtain ⟨waits, goesOn⟩ := routerTake_lookedUp hp hd hh hi used
    exact ⟨congrArg Host.Outcome.next waits, fun pause hpause => congrArg Host.Outcome.next (goesOn pause hpause)⟩
  · intro entry c v count accepted consumed e forwarded goesOn
    have resumed : ∀ t : State, resumeDecision pause d v = t → goesOn t.settled := fun t ht =>
      congrArg Host.Outcome.next ((routerTake_resumes hp hh hd pause).trans (congrArg State.settled ht))
    have forwards : ∀ (x : Event) (u : State), forwardPart c x u = forwarded x u := fun x u => forwardPart_eq c x u
    refine ⟨fun hstage => ?_, fun hstage => ?_, fun hstage => ?_⟩
    · have reads : resumeDecision pause d v = decideReading pause d v := by simp only [resumeDecision, hstage]
      refine ⟨fun hs => ?_, fun hs hf => ?_, fun hs ha hc => ?_⟩
      · refine resumed _ (reads.trans ?_)
        simp only [decideReading, hs, if_true]
        rfl
      · exact resumed _ (reads.trans (decideReading_filtered hs hf pause v))
      · intro routed
        refine ⟨fun hpause => ?_, fun hpause => ?_, fun hpause => ?_⟩
        · refine resumed _ (reads.trans ((decideReading_routed hs ha hc pause v).trans ?_))
          rw [routeEvent, Deciding.reach_waits hpause, converted_source]
          rfl
        · refine resumed _ (reads.trans ((decideReading_routed hs ha hc pause v).trans ?_))
          rw [routeEvent, Deciding.reach_passes (by simp [hpause]), converted_source, decideForward,
            Deciding.reach_waits hpause]
          exact congrArg
            (fun u : State => ({ u with deciding := some { d with event := e, stage := .forwarded } } : State))
            (forwards e routed)
        · refine localOutcome_of_decideLocal (resumed _ (reads.trans ?_))
          rw [decideReading_local hs ha hc (by rcases hpause with h | h <;> simp [h])
            (by rcases hpause with h | h <;> simp [h])]
          exact congrArg (decideLocal c e) (forwards e routed)
    · have reads : resumeDecision pause d v = decideForward pause d v := by simp only [resumeDecision, hstage]
      refine ⟨fun hpause => ?_, fun hpause => ?_⟩
      · refine resumed _ (reads.trans ?_)
        rw [decideForward, Deciding.reach_waits hpause, ← forwards]
      · refine localOutcome_of_decideLocal (resumed _ (reads.trans ?_))
        rw [decideForward_passes hpause, ← forwards]
    · exact localOutcome_of_decideLocal (resumed _ (by simp only [resumeDecision, hstage, c]))

/-! ### Settings (R14, R31 to R34, R70, R82, R85, R93)

`KeepsSettings s t`: the settings of `t` are those of `s`. Every operation keeps them but the effects of six commands
and a device reset, so a step that takes a command keeps all settings that are not its command's (`KeepsSettingsBut`). -/

/-- What O11 speaks of: the state and fields of route entries, the settings of input lines, and mode, drive and polarity
of output lines. -/
@[ext] structure Settings where
  routes : Fin 256 → RouteState × RouteConfig
  inputs : Fin 16 → InConfig
  outputs : Fin 16 → OutMode × Drive × Polarity

def State.settings (s : State) : Settings where
  routes e := (s.routes[e].state, s.routes[e].config)
  inputs n := s.inputs[n].config
  outputs n := (s.outputs[n].mode, s.outputs[n].drive, s.outputs[n].polarity)

/-- No setting differs between the two states. -/
def KeepsSettings (s t : State) : Prop := t.settings = s.settings

theorem KeepsSettings.refl (s : State) : KeepsSettings s s := Eq.refl s.settings

theorem KeepsSettings.trans {s t u : State} (h : KeepsSettings s t) (k : KeepsSettings t u) : KeepsSettings s u :=
  Eq.trans k h

/-- An operation that keeps settings, after one that does not touch them. -/
theorem KeepsSettings.after_same {s t u : State} (k : KeepsSettings t u) (h : t.settings = s.settings) :
    KeepsSettings s u := Eq.trans k h

/-- A raise that waits is no setting. -/
theorem KeepsSettings.raise {s t : State} {cls : FaultClass} {context : Word} (k : KeepsSettings s t) :
    KeepsSettings s (raiseFault cls context t) := k

/-- A hand-over that waits is no setting. -/
theorem KeepsSettings.handOver {s t : State} {h : Option Handover} (k : KeepsSettings s t) :
    KeepsSettings s { t with handover := h } := k

theorem KeepsSettings.ite {s t u : State} {c : Prop} [Decidable c] (ht : KeepsSettings s t) (hu : KeepsSettings s u) :
    KeepsSettings s (if c then t else u) := by
  split
  · exact ht
  · exact hu

theorem KeepsSettings.of_routes {s t : State} (inputs : t.inputs = s.inputs) (outputs : t.outputs = s.outputs)
    (routes : ∀ e, t.settings.routes e = s.settings.routes e) : KeepsSettings s t :=
  Settings.ext (funext routes) (by simp only [State.settings, inputs]) (by simp only [State.settings, outputs])

theorem KeepsSettings.of_inputs {s t : State} (routes : t.routes = s.routes) (outputs : t.outputs = s.outputs)
    (inputs : ∀ n, t.settings.inputs n = s.settings.inputs n) : KeepsSettings s t :=
  Settings.ext (by simp only [State.settings, routes]) (funext inputs) (by simp only [State.settings, outputs])

theorem KeepsSettings.of_outputs {s t : State} (routes : t.routes = s.routes) (inputs : t.inputs = s.inputs)
    (outputs : ∀ n, t.settings.outputs n = s.settings.outputs n) : KeepsSettings s t :=
  Settings.ext (by simp only [State.settings, routes]) (by simp only [State.settings, inputs]) (funext outputs)

/-! #### What writes a member of a bank -/

/-- R30: an entry written with its state and fields as they stood. -/
theorem setRoute_settings {source : Byte} {r : RouteEntry} {s : State} (hs : r.state = (routeOf s source).state)
    (hc : r.config = (routeOf s source).config) : KeepsSettings s (setRoute source r s) := by
  refine .of_routes (setRoute_inputs _ _ _) (setRoute_outputs _ _ _) fun e => ?_
  simp only [State.settings, setRoute_routes, Fin.getElem_fin, Vector.getElem_set]
  split
  · rename_i he
    rw [hs, hc, routeOf, Fin.getElem_fin]
    simp only [he]
  · rfl

theorem countRoute_settings (source : Byte) (f : RouteCounters → RouteCounters) (s : State) :
    KeepsSettings s (countRoute source f s) := setRoute_settings rfl rfl

/-- R71, R84: a line written with its settings as they stood. -/
theorem setInput_settings {n : Fin 16} {l : InputLine} {s : State} (h : l.config = s.inputs[n].config) :
    KeepsSettings s (setInput n l s) := by
  refine .of_inputs (setInput_routes _ _ _) (setInput_outputs _ _ _) fun m => ?_
  simp only [State.settings, setInput_inputs, Fin.getElem_fin, Vector.getElem_set]
  split
  · rename_i hm
    rw [h, Fin.getElem_fin]
    simp only [hm]
  · rfl

/-- R86, R98: a line written with its mode, drive and polarity as they stood. -/
theorem setOutput_settings {n : Fin 16} {o : OutputLine} {s : State}
    (h : (o.mode, o.drive, o.polarity) = s.settings.outputs n) : KeepsSettings s (setOutput n o s) := by
  refine .of_outputs (setOutput_routes _ _ _) (setOutput_inputs _ _ _) fun m => ?_
  simp only [State.settings, setOutput_outputs, Fin.getElem_fin, Vector.getElem_set] at h ⊢
  split
  · rename_i hm
    rw [h]
    simp only [hm]
  · rfl

theorem resetCapture_settings (s : State) : KeepsSettings s (resetCapture s) := by
  refine .of_inputs (resetCapture_routes s) (resetCapture_outputs s) fun m => ?_
  simp [State.settings, InputLine.resetCapture]

/-- R68, R96: pulses that are moved or ended. -/
theorem mapPulses_settings (f : OutputLine → Option Int) (s : State) :
    KeepsSettings s { s with outputs := mapBank (fun o => { o with pulse := f o }) s.outputs } := by
  refine .of_outputs rfl rfl fun m => ?_
  simp [State.settings]

/-! #### Records, completions and commands taken -/

theorem setCause_settings (c : Cause) (s : State) : KeepsSettings s (setCause c s) := rfl

theorem takeRaise_settings (r : Raise) (s : State) : KeepsSettings s (takeRaise r s) := by
  rw [takeRaise_eq]; rfl

theorem takeRecord_settings (ring : Fin 4) (r : HostRecord) (s : State) : KeepsSettings s (takeRecord ring r s) := by
  rw [takeRecord_eq]; rfl

theorem handCompletion_settings (kind : Byte) (tag : Word) (st : Status) (w1 w2 w3 : Word) (s : State) :
    KeepsSettings s (handCompletion kind tag st w1 w2 w3 s) := by
  rw [handCompletion_eq]; rfl

theorem finishDeferred_settings (k : DeferredKind) (st : Status) (w1 w2 w3 : Word) (s : State) :
    KeepsSettings s (finishDeferred k st w1 w2 w3 s) := by
  rw [finishDeferred_eq]; rfl

theorem settle_settings (s : State) : KeepsSettings s (settle s) := by
  rw [settle_eq]; rfl

theorem commandFetch_settings (s : State) : KeepsSettings s (commandFetch s) := by
  rw [commandFetch_eq]; rfl

theorem takeCommand_settings (s : State) : KeepsSettings s (takeCommand s) := by
  rw [takeCommand_eq]; rfl

theorem commandIndexWritten_settings (s : State) : KeepsSettings s (commandIndexWritten s) := by
  rw [commandIndexWritten_eq]; rfl

theorem finishQuiesce_settings (st : Status) (s : State) : KeepsSettings s (finishQuiesce st s) := by
  unfold finishQuiesce
  split
  · exact finishDeferred_settings _ _ _ _ _ s
  · rfl

theorem answerCommand_settings (kind : Byte) (tag : Word) (a : Answer) (s : State) :
    KeepsSettings s (answerCommand kind tag a s) := by
  cases a with
  | done =>
    simp only [answerCommand]
    rw [finishImmediate_eq]
    rfl
  | joined => exact settle_settings s
  | underWay => rfl

theorem abortDeferred_settings (s : State) : KeepsSettings s (abortDeferred s) := by
  have fold : ∀ (ds : List Deferred) (t : State), KeepsSettings t (ds.foldl abortOne t) := by
    intro ds
    induction ds with
    | nil => exact .refl
    | cons d ds ih => exact fun t => (handCompletion_settings _ _ _ _ _ _ t).trans (ih _)
  exact fold s.deferred s

theorem recordWriteDone_settings (target : WriteTarget) (s : State) : KeepsSettings s (recordWriteDone target s) := by
  cases target with
  | completionRing =>
    refine .ite ?_ rfl
    unfold completionWritten
    split
    · rfl
    · split <;> rfl
  | eventRing ring =>
    refine .ite ?_ rfl
    unfold eventWritten
    split
    · rfl
    · split <;> rfl
  | index field =>
    refine .ite ?_ rfl
    unfold indexWritten
    split
    · cases field <;> rfl
    · rfl
  | statsBuffer =>
    refine .ite ?_ rfl
    unfold bufferWritten
    split
    · rfl
    · dsimp only; split <;> rfl
  | issued index =>
    simp only [recordWriteDone, issuedWritten]
    split
    · rfl
    · exact .ite rfl rfl

theorem quiesceDeadline_settings (s : State) : KeepsSettings s (quiesceDeadline s) := by
  unfold quiesceDeadline
  split
  · exact .ite ((finishQuiesce_settings _ _).trans (settle_settings _)) rfl
  · rfl

theorem statsReadDone_settings (s : State) : KeepsSettings s (statsReadDone s) := by
  unfold statsReadDone
  split
  · exact .ite ((finishDeferred_settings _ _ _ _ _ _).trans (settle_settings _)) rfl
  · rfl

theorem faultRaise_settings (index : Nat) (s : State) : KeepsSettings s (faultRaise index s) := by
  unfold faultRaise
  split
  · rfl
  · rename_i r _
    exact (takeRaise_settings r _).after_same rfl

/-! #### The Capture Unit -/

theorem offerEvent_settings (e : Event) (s : State) : KeepsSettings s (offerEvent e s) := by
  rw [offerEvent_eq]; rfl

theorem loseToFull_settings {n : Fin 16} {l : InputLine} {s : State} (h : l.config = s.inputs[n].config) :
    KeepsSettings s (loseToFull n l s) := KeepsSettings.raise (setInput_settings h)

theorem loseToClosed_settings {n : Fin 16} {l : InputLine} {s : State} (h : l.config = s.inputs[n].config) :
    KeepsSettings s (loseToClosed n l s) := setInput_settings h

theorem offerEdge_settings {n : Fin 16} {l : InputLine} {e : Event} {level : Level} {window : Option Nat} {s : State}
    (h : l.config = s.inputs[n].config) : KeepsSettings s (offerEdge n l e level window s) := by
  unfold offerEdge
  split
  · exact (offerEvent_settings e s).trans (setInput_settings (by rw [offerEvent_inputs]; exact h))
  · exact loseToFull_settings h
  · exact loseToClosed_settings h

theorem acceptChange_settings {n : Fin 16} {l : InputLine} {stamp : Nat} {s : State}
    (h : l.config = s.inputs[n].config) : KeepsSettings s (acceptChange n l stamp s) :=
  .ite (.ite (setInput_settings h) (offerEdge_settings h)) (setInput_settings h)

theorem rawChange_settings (n : Fin 16) (level : Level) (s : State) : KeepsSettings s (rawChange n level s) := by
  refine .ite rfl (.ite ?_ (setInput_settings rfl))
  split
  · exact setInput_settings rfl
  · exact .ite (acceptChange_settings rfl) (setInput_settings rfl)

theorem filterAccept_settings (n : Fin 16) (s : State) : KeepsSettings s (filterAccept n s) := by
  unfold filterAccept
  dsimp only
  split
  · rfl
  · exact .ite (acceptChange_settings rfl) rfl

theorem spacingEnd_settings (n : Fin 16) (s : State) : KeepsSettings s (spacingEnd n s) := by
  unfold spacingEnd
  dsimp only
  split
  · rfl
  · refine .ite ?_ rfl
    split
    · exact setInput_settings rfl
    · exact offerEdge_settings rfl

theorem offerState_settings (n : Fin 16) (s : State) : KeepsSettings s (offerState n s) := by
  unfold offerState
  dsimp only
  split
  · exact (offerEvent_settings _ s).trans (setInput_settings (by rw [offerEvent_inputs]))
  · rfl
  · rfl

theorem announceLine_settings (n : Fin 16) (s : State) : KeepsSettings s (announceLine n s) := by
  refine .ite rfl ?_
  split
  · exact offerState_settings n s
  · exact loseToFull_settings rfl
  · exact loseToClosed_settings rfl

theorem announceNext_settings (k : Nat) (s : State) : KeepsSettings s (announceNext k s) := by
  induction k generalizing s with
  | zero => exact .refl s
  | succ k ih =>
    simp only [announceNext]
    split
    · exact .refl s
    · exact ((announceLine_settings _ _).trans (ih _)).after_same rfl

/-! #### The Router and the Release Unit -/

theorem forward_settings (e : Event) (s : State) : KeepsSettings s (forward e s) := by
  unfold forward
  split
  · have marked : ∀ t, KeepsSettings t (markForwarded e.origin t) := fun t => by cases e.origin <;> rfl
    exact ((countRoute_settings _ _ _).trans (marked _)).after_same rfl
  · exact countRoute_settings _ _ s
  · exact (countRoute_settings _ _ s).raise

theorem decideLocal_settings (c : RouteConfig) (e : Event) (s : State) : KeepsSettings s (decideLocal c e s) := by
  refine .ite rfl ?_
  simp only [decideOutcome]
  split
  · rfl
  · split
    · exact KeepsSettings.handOver ((countRoute_settings _ _ _).after_same rfl)
    · exact (countRoute_settings _ _ _).after_same rfl
  · exact .ite rfl ((countRoute_settings _ _ s).raise)

theorem Deciding.reach_settings (d : Deciding) (pause : Option DecisionStage) {run : State → State} {s : State}
    (h : KeepsSettings s (run s)) : KeepsSettings s (d.reach pause run s) := .ite rfl h

theorem decideForward_settings (pause : Option DecisionStage) (d : Deciding) (s : State) :
    KeepsSettings s (decideForward pause d s) :=
  KeepsSettings.trans (.ite (forward_settings _ s) rfl) (Deciding.reach_settings _ _ (decideLocal_settings _ _ _))

theorem decideReading_settings (pause : Option DecisionStage) (d : Deciding) (s : State) :
    KeepsSettings s (decideReading pause d s) := by
  refine .ite (countRoute_settings _ _ s) (.ite ?_ (countRoute_settings _ _ s))
  split
  · exact countRoute_settings _ _ s
  · exact (countRoute_settings _ _ s).trans (Deciding.reach_settings _ _ (decideForward_settings _ _ _))

theorem routerTake_settings (pause : Option DecisionStage) (s : State) : KeepsSettings s (routerTake pause s) := by
  refine .ite ?_ rfl
  split
  · refine KeepsSettings.trans ?_ (settle_settings _)
    unfold resumeDecision
    split
    · exact (decideReading_settings _ _ _).after_same rfl
    · exact (decideForward_settings _ _ _).after_same rfl
    · exact (decideLocal_settings _ _ _).after_same rfl
  · rfl
  · refine KeepsSettings.trans ?_ (settle_settings _)
    unfold decideEvent
    split
    · rfl
    · exact (Deciding.reach_settings _ _ (decideReading_settings _ _ _)).after_same rfl

theorem holdRelease_settings (s : State) : KeepsSettings s (holdRelease s) := by
  refine .ite ?_ rfl
  split
  · rfl
  · exact .ite rfl rfl

theorem handoverTake_settings (s : State) : KeepsSettings s (handoverTake s) := by
  refine .ite ?_ rfl
  split <;> rfl

/-- R88 to R90: a request moves level, pulse and counters of its line alone. -/
theorem OutputLine.act_settings {kind : EventKind} {start : Int} {now : Nat} {o : OutputLine}
    {r : OutputLine × LineOutcome} (h : o.act kind start now = some r) :
    (r.1.mode, r.1.drive, r.1.polarity) = (o.mode, o.drive, o.polarity) := by
  have level : ∀ l, ((o.applyLevel l).1.mode, (o.applyLevel l).1.drive, (o.applyLevel l).1.polarity)
      = (o.mode, o.drive, o.polarity) := by
    intro l
    unfold OutputLine.applyLevel
    split
    · rfl
    · split <;> rfl
  cases kind with
  | mark => cases h
  | pulse width =>
    cases h
    unfold OutputLine.applyPulse
    dsimp only
    split <;> rfl
  | _ =>
    cases h
    exact level _

theorem OutputLine.request_settings (kind : EventKind) (start : Int) (now : Nat) (running : Bool) (o : OutputLine) :
    ((o.request kind start now running).mode, (o.request kind start now running).drive,
      (o.request kind start now running).polarity) = (o.mode, o.drive, o.polarity) := by
  unfold OutputLine.request
  split
  · rfl
  · rename_i r hr
    split
    · exact act_settings hr
    · rfl

theorem applicationRequest_settings (line : Fin 16) (s : State) : KeepsSettings s (applicationRequest line s) := by
  unfold applicationRequest
  split
  · rfl
  · refine .ite (KeepsSettings.trans ?_ (settle_settings _)) rfl
    refine KeepsSettings.after_same (setOutput_settings ?_) (t := { s with delivery := _ }) rfl
    exact OutputLine.request_settings _ _ _ _ _

theorem pulseEnd_settings (line : Fin 16) (s : State) :
    KeepsSettings s (setOutput line (s.outputs[line].expire s.localTime) s) := by
  refine setOutput_settings ?_
  unfold OutputLine.expire
  split
  · rfl
  · split <;> rfl

theorem eventRecordTake_settings (poster : Poster) (s : State) : KeepsSettings s (eventRecordTake poster s) := by
  refine .ite ?_ rfl
  cases poster with
  | release ring =>
    dsimp only
    split
    · rfl
    · exact .ite (((takeRecord_settings _ _ _).trans (settle_settings _)).after_same rfl) rfl
  | faultUnit =>
    dsimp only
    split
    · exact (takeRecord_settings _ _ _).after_same rfl
    · rfl
  | linkController =>
    dsimp only
    split
    · exact (takeRecord_settings _ _ _).after_same rfl
    · rfl

/-! #### The link -/

theorem enterFailed_settings (r : Reason) (s : State) : KeepsSettings s (enterFailed r s) := by
  rw [enterFailed_eq]; rfl

theorem enterClosed_settings (r : Reason) (sendClose : Bool) (s : State) :
    KeepsSettings s (enterClosed r sendClose s) := by
  rw [enterClosed_eq]; rfl

theorem enterUp_settings (pause : Option Nat) (s : State) : KeepsSettings s (enterUp pause s) := by
  have noticed : KeepsSettings s (finishLinkOpen .ok (postLinkNotice (linkNotice (onLink Link.enterUp s))
      (onLink Link.enterUp s))) := by
    rw [finishLinkOpen_eq, postLinkNotice_eq]
    rfl
  exact noticed.trans ((announceNext_settings _ _).after_same rfl)

theorem arrived_settings (s : State) : KeepsSettings s (arrived s) := rfl

theorem receive_settings {f : State → State} (hf : ∀ s, KeepsSettings s (f s)) (s : State) :
    KeepsSettings s (receive f s) :=
  .ite rfl (((arrived_settings s).trans (hf _)).trans (settle_settings _))

theorem takeHello_settings (sender seen : Half) (s : State) : KeepsSettings s (takeHello sender seen s) := by
  unfold takeHello
  split
  · rfl
  · rfl
  · rfl
  · exact .ite rfl (enterFailed_settings _ s)
  · exact .ite rfl (enterFailed_settings _ s)

theorem takeClose_settings (sender : Half) (s : State) : KeepsSettings s (takeClose sender s) :=
  .ite (enterClosed_settings _ _ s) rfl

theorem takeEvent_settings (f : RxEventFields) (s : State) : KeepsSettings s (takeEvent f s) := by
  unfold takeEvent
  split
  · exact .ite rfl rfl
  · refine .ite (.ite ?_ (.ite rfl rfl)) rfl
    unfold takeExpected
    split
    · exact (offerEvent_settings _ _).after_same rfl
    · rfl
    · rfl

theorem takeAck_settings (next : Byte) (s : State) : KeepsSettings s (takeAck next s) :=
  .ite (.ite rfl (.ite rfl rfl)) rfl

theorem takeEcho_settings (number : Byte) (t1 t2 t3 : Quad) (pause : Option Nat) (s : State) :
    KeepsSettings s (takeEcho number t1 t2 t3 pause s) := by
  refine .ite ?_ rfl
  split
  · exact .ite (.ite ((enterUp_settings pause _).after_same rfl) rfl) rfl
  · rfl

theorem rxEcho_settings (number : Byte) (t1 t2 t3 : Quad) (part : EchoPart) (s : State) :
    KeepsSettings s (rxEcho number t1 t2 t3 part s) := by
  cases part with
  | frame pause => exact receive_settings (takeEcho_settings number t1 t2 t3 pause) s
  | announce pause => exact .ite (announceNext_settings _ s) rfl

theorem frameSent_settings (s : State) : KeepsSettings s (frameSent s) := by
  unfold frameSent
  split <;> rfl

/-- R107, R109, R112, R125: a timer that fails the session. -/
theorem sessionFails_settings (r : Reason) (s : State) : KeepsSettings s (settle (enterFailed r s)) :=
  (enterFailed_settings r s).trans (settle_settings _)

theorem ackTimeout_settings (s : State) : KeepsSettings s (ackTimeout s) := by
  refine .ite ?_ rfl
  split
  · rfl
  · exact .ite rfl (sessionFails_settings _ s)

/-! #### Part states (9.1) -/

theorem offersLate_settings (late : List LateOffer) (s : State) : KeepsSettings s (offersLate late s) := by
  have one : ∀ (x : LateOffer) (t : State), KeepsSettings t (offerLate x t) := by
    intro x t
    cases x with
    | edge line => exact filterAccept_settings line t
    | unfiltered line level => exact rawChange_settings line level t
    | catchUp line => exact spacingEnd_settings line t
    | announce => exact announceNext_settings 1 t
    | frame f => exact receive_settings (takeEvent_settings f) t
  have fold : ∀ t, KeepsSettings t (late.foldl (fun t x => offerLate x t) t) := by
    induction late with
    | nil => exact .refl
    | cons x xs ih => exact fun t => (one x t).trans (ih _)
  exact (fold { s with intakeOpen := false }).after_same rfl

theorem closeAtStop_settings (s : State) : KeepsSettings s (closeAtStop s) := .ite rfl (enterClosed_settings _ _ s)

theorem closeAtHalt_settings (s : State) : KeepsSettings s (closeAtHalt s) := .ite rfl rfl

/-- R71, R96: capture state reset and pulses ended. -/
theorem linesReset_settings (s : State) : KeepsSettings s (endPulses (resetCapture s)) :=
  (resetCapture_settings s).trans (mapPulses_settings _ _)

theorem enterStopping_settings (late : List LateOffer) (s : State) : KeepsSettings s (enterStopping late s) := by
  have closed : KeepsSettings s (closeAtStop (abortDeferred (offersLate late s))) :=
    ((offersLate_settings late s).trans (abortDeferred_settings _)).trans (closeAtStop_settings _)
  exact closed.trans ((linesReset_settings _).after_same rfl)

theorem enterHalted_settings (late : List LateOffer) (s : State) : KeepsSettings s (enterHalted late s) := by
  have closed := (offersLate_settings late s).trans (closeAtHalt_settings _)
  unfold enterHalted
  generalize closeAtHalt (offersLate late s) = u at closed
  refine closed.trans ?_
  exact (((linesReset_settings _).trans (takeRaise_settings _ _)).trans (setCause_settings _ _)).after_same rfl

theorem startPart_settings (s : State) : KeepsSettings s (startPart s) := .ite rfl (.ite (.ite rfl rfl) rfl)

theorem setupReadDone_settings (b : SetupBlock) (s : State) : KeepsSettings s (setupReadDone b s) := by
  unfold setupReadDone
  split
  · exact .ite rfl rfl
  · rfl

theorem statusBlockInitDone_settings (s : State) : KeepsSettings s (statusBlockInitDone s) := by
  unfold statusBlockInitDone
  split
  · exact ((resetCapture_settings _).trans (setCause_settings _ _)).after_same rfl
  · rfl

theorem stoppingEnd_settings (s : State) : KeepsSettings s (stoppingEnd s) :=
  .ite ((commandIndexWritten_settings s).trans rfl) rfl

/-! #### Commands (chapter 10) -/

/-- R31 to R34, R82, R93: the settings that are not those of the command `c` are kept. -/
structure KeepsSettingsBut (c : Command) (s t : State) : Prop where
  routes : Command.setsRoutes c = false → t.settings.routes = s.settings.routes
  inputs : Command.setsInputs c = false → t.settings.inputs = s.settings.inputs
  outputs : Command.setsOutputs c = false → t.settings.outputs = s.settings.outputs

theorem KeepsSettings.but {s t : State} (h : KeepsSettings s t) (c : Command) : KeepsSettingsBut c s t :=
  ⟨fun _ => congrArg Settings.routes h, fun _ => congrArg Settings.inputs h, fun _ => congrArg Settings.outputs h⟩

theorem KeepsSettingsBut.trans {c : Command} {s t u : State} (h : KeepsSettingsBut c s t)
    (k : KeepsSettingsBut c t u) : KeepsSettingsBut c s u :=
  ⟨fun hc => (k.routes hc).trans (h.routes hc), fun hc => (k.inputs hc).trans (h.inputs hc),
    fun hc => (k.outputs hc).trans (h.outputs hc)⟩

/-- What touches no setting, after an operation that keeps those that are not of `c`. -/
theorem KeepsSettingsBut.then_same {c : Command} {s t u : State} (h : KeepsSettingsBut c s t)
    (k : u.settings = t.settings) : KeepsSettingsBut c s u := h.trans (KeepsSettings.but k c)

/-- An execution keeps the settings that are not those of `c`, whatever falls inside it. -/
def Execution.KeepsSettingsBut (c : Command) (x : Execution) : Prop :=
  ∀ (falls : Falls) (s : State), Machine.KeepsSettingsBut c s (x falls s).1

theorem whole_settingsBut {c : Command} {f : State → State × Answer} (hf : ∀ s, KeepsSettingsBut c s (f s).1) :
    Execution.KeepsSettingsBut c (whole f) := by
  rintro (_ | ⟨_ | n, late⟩ | ⟨_ | n⟩) s
  · exact hf s
  · exact ((enterStopping_settings late s).but c).trans (hf _)
  · exact (hf s).trans ((enterStopping_settings late _).but c)
  · exact (KeepsSettings.refl s).but c
  · exact hf s

/-- A command with one request, which touches no setting. -/
theorem whole_settings {f : State → State × Answer} (hf : ∀ s, KeepsSettings s (f s).1) (c : Command) :
    Execution.KeepsSettingsBut c (whole f) := whole_settingsBut fun s => (hf s).but c

theorem rejected_settings (status : Status) (s : State) : KeepsSettings s (rejected status s).1 := .refl s

theorem advance_settings (k : Nat) : ∀ (w : OfferSet) (s : State), KeepsSettings s (w.advance k s).1 := by
  induction k with
  | zero => exact fun w s => .refl s
  | succ k ih =>
    intro w s
    simp only [OfferSet.advance]
    split
    · exact .refl s
    · refine KeepsSettings.trans ?_ (ih _ _)
      unfold OfferSet.offer
      split
      · exact offerState_settings _ s
      · exact .refl s
      · exact .refl s

theorem makeOffers_settings (w : OfferSet) (falls : Falls) (s : State) :
    KeepsSettings s (makeOffers w falls s).1 := by
  cases falls with
  | nothing => exact advance_settings _ w s
  | stop requests late => exact (advance_settings requests w s).trans (enterStopping_settings late _)
  | others requests => exact advance_settings requests w s

theorem refreshExecution_settings (tag lines : Word) (c : Command) :
    (refreshExecution tag lines).KeepsSettingsBut c := by
  intro falls s
  unfold refreshExecution
  split
  · exact (makeOffers_settings _ falls s).but c
  · exact whole_settings (rejected_settings _) c falls s

section
variable {c : Command} {s : State}

/-- R31, R33, R34: an entry written by a command of the Route Table. -/
theorem setRoute_settingsBut (hc : Command.setsRoutes c = true) (source : Byte) (r : RouteEntry) :
    KeepsSettingsBut c s (setRoute source r s) :=
  ⟨fun h => absurd (hc.symm.trans h) (by decide), fun _ => rfl, fun _ => rfl⟩

/-- R82: a line written by LINE_IN_CONFIG. -/
theorem setInput_settingsBut (hc : Command.setsInputs c = true) (n : Fin 16) (l : InputLine) :
    KeepsSettingsBut c s (setInput n l s) :=
  ⟨fun _ => rfl, fun h => absurd (hc.symm.trans h) (by decide), fun _ => rfl⟩

/-- R93: a line written by LINE_OUT_CONFIG. -/
theorem setOutput_settingsBut (hc : Command.setsOutputs c = true) (n : Fin 16) (o : OutputLine) :
    KeepsSettingsBut c s (setOutput n o s) :=
  ⟨fun _ => rfl, fun _ => rfl, fun h => absurd (hc.symm.trans h) (by decide)⟩

end

theorem routeSetExecution_settings (tag : Word) (f : RouteSetFields) :
    (routeSetExecution tag f).KeepsSettingsBut (.routeSet f) := by
  have replaced : ∀ s, KeepsSettingsBut (.routeSet f) s (replaceRoute f s) := fun s => setRoute_settingsBut rfl _ _
  intro falls s
  unfold routeSetExecution
  split
  · split
    · exact (replaced s).trans ((makeOffers_settings _ falls _).but _)
    · exact whole_settingsBut replaced falls s
  · exact whole_settings (rejected_settings _) _ falls s

theorem routeClearExecution_settings (f : RouteClearFields) :
    (routeClearExecution f).KeepsSettingsBut (.routeClear f) := by
  refine whole_settingsBut fun s => ?_
  have cleared : KeepsSettingsBut (.routeClear f) s (clearRoute (sourceOf f.source) s) := setRoute_settingsBut rfl _ _
  split
  · dsimp only
    split
    · exact cleared.then_same rfl
    · exact cleared
  · exact (rejected_settings _ s).but _

theorem changeRouteState_settings {c : Command} (hc : Command.setsRoutes c = true) (target : RouteState) (source : Half)
    (s : State) : KeepsSettingsBut c s (changeRouteState target source s).1 := by
  unfold changeRouteState
  split
  · dsimp only
    split
    · exact (rejected_settings _ s).but c
    · exact setRoute_settingsBut hc _ _
  · exact (rejected_settings _ s).but c

theorem lineInExecution_settings (f : LineInFields) : (lineInExecution f).KeepsSettingsBut (.lineInConfig f) := by
  refine whole_settingsBut fun s => ?_
  split
  · exact setInput_settingsBut rfl _ _
  · exact (rejected_settings _ s).but _

theorem lineOutExecution_settings (f : LineOutFields) : (lineOutExecution f).KeepsSettingsBut (.lineOutConfig f) := by
  refine whole_settingsBut fun s => ?_
  split
  · exact setOutput_settingsBut rfl _ _
  · exact (rejected_settings _ s).but _

theorem outputSetExecution_settings (f : OutputSetFields) (c : Command) :
    (outputSetExecution f).KeepsSettingsBut c := by
  refine whole_settings (fun s => ?_) c
  split
  · dsimp only
    split
    · split
      · rename_i h
        exact setOutput_settings (OutputLine.act_settings h)
      · exact rejected_settings _ s
    · rfl
  · exact rejected_settings _ s

theorem scheduleExecution_settings (f : ScheduleFields) (c : Command) : (scheduleExecution f).KeepsSettingsBut c := by
  refine whole_settings (fun s => ?_) c
  split
  · exact rejected_settings _ s
  · split
    · exact (offerEvent_settings _ s).trans rfl
    · rfl
    · rfl

theorem timeSetExecution_settings (time : Quad) (c : Command) : (timeSetExecution time).KeepsSettingsBut c := by
  refine whole_settings (fun s => ?_) c
  have stepped : ∀ (f : OutputLine → Option Int) (g : Option Delivery → Option Delivery) (l : Link → Link) (t : State),
      KeepsSettings t (onLink l { resetCapture t with
        outputs := mapBank (fun o => { o with pulse := f o }) (resetCapture t).outputs
        delivery := g (resetCapture t).delivery }) := fun f g l t =>
    ((resetCapture_settings t).trans (mapPulses_settings f _)).trans rfl
  split
  · split
    · unfold stepTime
      exact .ite (KeepsSettings.raise ((stepped _ _ _ _).after_same rfl)) ((stepped _ _ _ _).after_same rfl)
    · rfl
  · exact rejected_settings _ s

theorem linkOpenExecution_settings (tag : Word) (f : LinkOpenFields) (c : Command) :
    (linkOpenExecution tag f).KeepsSettingsBut c := by
  refine whole_settings (fun s => ?_) c
  split
  · split <;> rfl
  · exact rejected_settings _ s

theorem quiesceExecution_settings (tag deadline : Word) (c : Command) :
    (quiesceExecution tag deadline).KeepsSettingsBut c := by
  refine whole_settings (fun s => ?_) c
  split
  · exact rejected_settings _ s
  · split
    · rfl
    · exact (settle_settings _).after_same rfl

theorem openExecution_settings (c : Command) : openExecution.KeepsSettingsBut c :=
  whole_settings (fun _ => (finishQuiesce_settings _ _).after_same rfl) c

theorem statsReadExecution_settings (tag : Word) (f : StatsReadFields) (c : Command) :
    (statsReadExecution tag f).KeepsSettingsBut c := by
  refine whole_settings (fun s => ?_) c
  split
  · split <;> rfl
  · exact rejected_settings _ s

theorem faultsExecution_settings (f : FaultsFields) (c : Command) : (faultsExecution f).KeepsSettingsBut c := by
  refine whole_settings (fun s => ?_) c
  split
  · rfl
  · exact rejected_settings _ s

theorem fenceExecution_settings (tag : Word) (c : Command) : (fenceExecution tag).KeepsSettingsBut c := by
  refine whole_settings (fun s => ?_) c
  split
  · rfl
  · exact (settle_settings _).after_same rfl

/-- Every command keeps the settings that are not its own, whatever falls inside its execution. -/
theorem executionOf_settings (tag : Word) (c : Command) : (executionOf tag c).KeepsSettingsBut c := by
  cases c with
  | unknown kind => exact whole_settings (rejected_settings _) _
  | routeSet f => exact routeSetExecution_settings tag f
  | routeClear f => exact routeClearExecution_settings f
  | routeSuspend source => exact whole_settingsBut (changeRouteState_settings rfl _ source)
  | routeResume source => exact whole_settingsBut (changeRouteState_settings rfl _ source)
  | lineInConfig f => exact lineInExecution_settings f
  | lineOutConfig f => exact lineOutExecution_settings f
  | outputSet f => exact outputSetExecution_settings f _
  | schedule f => exact scheduleExecution_settings f _
  | cancel eventTag =>
    refine whole_settings (fun s => ?_) _
    rfl
  | refresh lines => exact refreshExecution_settings tag lines _
  | timeRead =>
    refine whole_settings (fun s => ?_) _
    rfl
  | timeSet time => exact timeSetExecution_settings time _
  | linkOpen f => exact linkOpenExecution_settings tag f _
  | linkClose => exact whole_settings (fun s => .ite rfl (enterClosed_settings _ _ s)) _
  | quiesce deadline => exact quiesceExecution_settings tag deadline _
  | openIntake => exact openExecution_settings _
  | statsRead f => exact statsReadExecution_settings tag f _
  | faults f => exact faultsExecution_settings f _
  | fence => exact fenceExecution_settings tag _

theorem abortLeftovers_settings (s : State) : KeepsSettings s (abortLeftovers s) :=
  .ite ((abortDeferred_settings s).trans (closeAtStop_settings _)) rfl

theorem runCommand_settings (falls : Falls) (kind : Byte) (tag : Word) {c : Command} {x : Execution}
    (hx : x.KeepsSettingsBut c) (s : State) : KeepsSettingsBut c s (runCommand falls kind tag x s) := by
  unfold runCommand
  split
  · have executed := ((takeCommand_settings s).but c).trans (hx falls (takeCommand s))
    exact executed.trans ((((answerCommand_settings _ _ _ _).trans (abortLeftovers_settings _)).trans
      (commandFetch_settings _)).but c)
  · exact (KeepsSettings.refl s).but c

theorem goOnOffering_settings (pause : Option Nat) (w : OfferSet) (s : State) :
    KeepsSettings s (goOnOffering pause w s) := by
  refine KeepsSettings.trans ?_ ((answerCommand_settings _ _ _ _).trans (commandFetch_settings _))
  split
  · exact (makeOffers_settings w _ _).after_same rfl
  · rfl
  · rfl
  · rfl
  · rfl

theorem runOffering_settings (pause : Option Nat) (tag : Word) {c : Command} {x : Execution}
    (hx : x.KeepsSettingsBut c) (s : State) : KeepsSettingsBut c s (runOffering pause tag c x s) := by
  unfold runOffering
  split
  · exact runCommand_settings _ _ tag hx s
  · split
    · exact (goOnOffering_settings pause _ s).but c
    · exact (KeepsSettings.refl s).but c

theorem executedSoFar_settings (o : Overtaken) (s : State) : KeepsSettingsBut o.command s (executedSoFar o s) := by
  have executed := ((takeCommand_settings s).but o.command).trans
    (executionOf_settings o.tag o.command (.others o.requests) (takeCommand s))
  unfold executedSoFar
  dsimp only
  split
  · exact executed.then_same rfl
  · exact executed
  · exact executed

theorem stopPart_settings (late : List LateOffer) (s : State) : KeepsSettings s (stopPart none late s) :=
  .ite (enterStopping_settings late s) rfl

theorem stopPart_settingsBut (o : Overtaken) (late : List LateOffer) (s : State) :
    KeepsSettingsBut o.command s (stopPart (some o) late s) := by
  unfold stopPart
  split
  · dsimp only
    split
    · exact runCommand_settings _ _ _ (executionOf_settings _ _) s
    · exact (enterStopping_settings late s).but _
  · exact (KeepsSettings.refl s).but _

theorem haltPart_settingsBut (o : Overtaken) (late : List LateOffer) (indexed : Bool) (s : State) :
    KeepsSettingsBut o.command s (haltPart (some o) late indexed s) := by
  unfold haltPart
  dsimp only
  split
  · refine KeepsSettingsBut.trans ?_ ((enterHalted_settings late _).but _)
    split
    · exact (executedSoFar_settings o s).trans ((commandIndexWritten_settings _).but _)
    · exact executedSoFar_settings o s
  · exact (enterHalted_settings late s).but _

/-- R138, R141: a bus-master error keeps what the entry to HALTED keeps. -/
theorem busMasterError_halts {R : State → State → Prop} {s : State} (during : Option Overtaken) (late : List LateOffer)
    (indexed : Bool) (same : ∀ t, t.settings = s.settings → R s t) (halts : R s (haltPart during late indexed s)) :
    R s (busMasterError during late indexed s) := by
  unfold busMasterError
  split
  · exact same _ rfl
  · exact halts
  · exact halts
  · exact same _ rfl
  · exact same _ rfl

/-! #### The register window and STATS_READ -/

theorem submit_settings (word : Word) (s : State) : KeepsSettings s (submit word s) := by
  unfold submit
  split
  · exact .ite ((commandFetch_settings _).after_same rfl) rfl
  · rfl

theorem release_settings (word : Word) (s : State) : KeepsSettings s (release word s) := by
  unfold release
  split
  · split
    · exact (commandFetch_settings _).after_same rfl
    · rfl
  · rfl

theorem writeCause_settings (word : Word) (s : State) : KeepsSettings s (writeCause word s) := .ite rfl rfl

theorem writeEnable_settings (word : Word) (s : State) : KeepsSettings s (writeEnable word s) := .ite rfl rfl

/-- R137: a word without the RESET bit written to CONTROL. -/
theorem control_settings {word : Word} (h : word.getLsbD 2 = false) (s : State) :
    KeepsSettings s (control word s) := by
  unfold control
  simp only [h, Bool.false_eq_true, if_false]
  exact .ite (startPart_settings s) (.ite (stopPart_settings [] s) rfl)

/-- R199: a register write that is no device reset. -/
theorem registerWrite_settings {offset count : Nat} {word : Word} (h : ¬ Resets (.registerWrite offset count word))
    (s : State) : KeepsSettings s (registerWrite offset count word s) := by
  unfold registerWrite
  split
  · rfl
  · rename_i hw
    obtain ⟨-, hcount⟩ : s.resetHeld = false ∧ count = 4 := by simpa using hw
    split
    · refine control_settings (Bool.eq_false_iff.2 fun hreset => h ?_) s
      exact .inr (.inr (.inr ⟨word, by rw [hcount], hreset⟩))
    · rfl
    · rfl
    · exact submit_settings word s
    · exact release_settings word s
    · exact writeCause_settings word s
    · exact writeEnable_settings word s
    · rfl

/-- R188: the clear flag empties counters alone. -/
theorem clearIn_settings (item : StatsItem) (s : State) : KeepsSettings s (item.clearIn s) := by
  cases item with
  | routeCounter e k => exact setRoute_settings (source := BitVec.ofFin e) rfl rfl
  | inputCounter n k => exact setInput_settings rfl
  | outputCounter n k => exact setOutput_settings rfl
  | globalCounter k =>
    simp only [StatsItem.clearIn, clearGlobal]
    split <;> rfl
  | _ => rfl

theorem statsItemRead_settings (board : BitVec 16) (s : State) : KeepsSettings s (statsItemRead board s) := by
  unfold statsItemRead
  split
  · split
    · rfl
    · exact .ite ((clearIn_settings _ _).after_same rfl) rfl
  · rfl

/-! #### Every step -/

/-- R101: a frame with a sender session of 0 is counted, and any other is taken. -/
theorem intact_settings {sender : Half} {f : State → State} (hf : ∀ s, KeepsSettings s (f s)) (s : State) :
    KeepsSettings s (if sender = 0 then countMalformed s else f s) := .ite rfl (hf s)

/-- R140, R160: the step takes the command `c`, alone or with the entry to STOPPING or HALTED inside its execution. -/
def TakesCommand (c : Command) (i : Instr) : Prop :=
  ∃ tag : Word, (∃ pause, i = takeUpTo pause tag c)
    ∨ ∃ requests late, i = .stop (some ⟨tag, c, requests⟩) late
        ∨ ∃ indexed, i = .busMasterError (some ⟨tag, c, requests⟩) late indexed

theorem takes_of_takesCommand {sort : Command → Bool} {c : Command} {i : Instr} (h : TakesCommand c i)
    (hc : sort c = true) : Takes sort i := by
  obtain ⟨tag, h⟩ := h
  exact ⟨c, tag, hc, h⟩

/-- What a step that is no device reset may do to the settings: nothing, but for those of a command it takes. -/
def MaySet (i : Instr) (s t : State) : Prop :=
  KeepsSettings s t ∨ ∃ c, TakesCommand c i ∧ KeepsSettingsBut c s t

theorem exec_takeUpTo_settings (pause : Option Nat) (tag : Word) (c : Command) (s : State) :
    ∃ t, exec (takeUpTo pause tag c) s = .next t ∧ MaySet (takeUpTo pause tag c) s t := by
  obtain ⟨t, ht, hcases⟩ := exec_takeUpTo pause tag c s
  refine ⟨t, ht, .inr ⟨c, ⟨tag, .inl ⟨pause, rfl⟩⟩, ?_⟩⟩
  rcases hcases with rfl | ⟨kind, rfl⟩ | ⟨p, rfl⟩
  · exact (KeepsSettings.refl t).but c
  · exact runCommand_settings _ _ tag (executionOf_settings tag c) s
  · exact runOffering_settings _ tag (executionOf_settings tag c) s

theorem exec_stop_settings (during : Option Overtaken) (late : List LateOffer) (s : State) :
    MaySet (.stop during late) s (stopPart during late s) := by
  cases during with
  | none => exact .inl (stopPart_settings late s)
  | some o => exact .inr ⟨o.command, ⟨o.tag, .inr ⟨o.requests, late, .inl rfl⟩⟩, stopPart_settingsBut o late s⟩

theorem exec_busMasterError_settings (during : Option Overtaken) (late : List LateOffer) (indexed : Bool) (s : State) :
    MaySet (.busMasterError during late indexed) s (busMasterError during late indexed s) := by
  refine busMasterError_halts (R := MaySet _) during late indexed (fun t ht => .inl ht) ?_
  cases during with
  | none => exact .inl (enterHalted_settings late s)
  | some o =>
    exact .inr ⟨o.command, ⟨o.tag, .inr ⟨o.requests, late, .inr ⟨indexed, rfl⟩⟩⟩, haltPart_settingsBut o late indexed s⟩

/-- R14, R70, R85: every meaning but a device reset keeps the settings that are not those of a command it takes. -/
theorem exec_settings {i : Instr} (hr : ¬ Resets i) (s : State) : ∃ t, exec i s = .next t ∧ MaySet i s t := by
  cases i with
  | start => exact ⟨_, rfl, .inl (startPart_settings s)⟩
  | stop during late => exact ⟨_, rfl, exec_stop_settings during late s⟩
  | reset => exact absurd (.inl rfl) hr
  | resetNAssert => exact absurd (.inr (.inr (.inl rfl))) hr
  | resetNRelease => exact ⟨_, rfl, .inl rfl⟩
  | functionReset => exact absurd (.inr (.inl rfl)) hr
  | setupReadDone block => exact ⟨_, rfl, .inl (setupReadDone_settings block s)⟩
  | statusBlockInitDone => exact ⟨_, rfl, .inl (statusBlockInitDone_settings s)⟩
  | stoppingEnd => exact ⟨_, rfl, .inl (stoppingEnd_settings s)⟩
  | busMasterError during late indexed => exact ⟨_, rfl, exec_busMasterError_settings during late indexed s⟩
  | submit word => exact ⟨_, rfl, .inl (submit_settings word s)⟩
  | release word => exact ⟨_, rfl, .inl (release_settings word s)⟩
  | intCause word => exact ⟨_, rfl, .inl (writeCause_settings word s)⟩
  | intEnable word => exact ⟨_, rfl, .inl (writeEnable_settings word s)⟩
  | registerWrite offset count word => exact ⟨_, rfl, .inl (registerWrite_settings hr s)⟩
  | unknownCommand tag kind => exact exec_takeUpTo_settings none tag (.unknown kind) s
  | routeSet tag f pause => exact exec_takeUpTo_settings pause tag (.routeSet f) s
  | routeClear tag f => exact exec_takeUpTo_settings none tag (.routeClear f) s
  | routeSuspend tag source => exact exec_takeUpTo_settings none tag (.routeSuspend source) s
  | routeResume tag source => exact exec_takeUpTo_settings none tag (.routeResume source) s
  | lineInConfig tag f => exact exec_takeUpTo_settings none tag (.lineInConfig f) s
  | lineOutConfig tag f => exact exec_takeUpTo_settings none tag (.lineOutConfig f) s
  | outputSet tag f => exact exec_takeUpTo_settings none tag (.outputSet f) s
  | schedule tag f => exact exec_takeUpTo_settings none tag (.schedule f) s
  | cancel tag eventTag => exact exec_takeUpTo_settings none tag (.cancel eventTag) s
  | refresh tag lines pause => exact exec_takeUpTo_settings pause tag (.refresh lines) s
  | timeRead tag => exact exec_takeUpTo_settings none tag .timeRead s
  | timeSet tag time => exact exec_takeUpTo_settings none tag (.timeSet time) s
  | linkOpen tag f => exact exec_takeUpTo_settings none tag (.linkOpen f) s
  | linkClose tag => exact exec_takeUpTo_settings none tag .linkClose s
  | quiesce tag deadline => exact exec_takeUpTo_settings none tag (.quiesce deadline) s
  | openIntake tag => exact exec_takeUpTo_settings none tag .openIntake s
  | statsRead tag f => exact exec_takeUpTo_settings none tag (.statsRead f) s
  | faults tag f => exact exec_takeUpTo_settings none tag (.faults f) s
  | fence tag => exact exec_takeUpTo_settings none tag .fence s
  | quiesceDeadline => exact ⟨_, rfl, .inl (quiesceDeadline_settings s)⟩
  | statsItemRead board => exact ⟨_, rfl, .inl (statsItemRead_settings board s)⟩
  | statsReadDone => exact ⟨_, rfl, .inl (statsReadDone_settings s)⟩
  | routerTake pause => exact ⟨_, rfl, .inl (routerTake_settings pause s)⟩
  | holdRelease => exact ⟨_, rfl, .inl (holdRelease_settings s)⟩
  | handoverTake => exact ⟨_, rfl, .inl (handoverTake_settings s)⟩
  | applicationRequest line => exact ⟨_, rfl, .inl (applicationRequest_settings line s)⟩
  | pulseEnd line => exact ⟨_, rfl, .inl (pulseEnd_settings line s)⟩
  | eventRecordTake poster => exact ⟨_, rfl, .inl (eventRecordTake_settings poster s)⟩
  | recordWriteDone target => exact ⟨_, rfl, .inl (recordWriteDone_settings target s)⟩
  | rawChange line level => exact ⟨_, rfl, .inl (rawChange_settings line level s)⟩
  | filterAccept line => exact ⟨_, rfl, .inl (filterAccept_settings line s)⟩
  | spacingEnd line => exact ⟨_, rfl, .inl (spacingEnd_settings line s)⟩
  | faultRaise index => exact ⟨_, rfl, .inl (faultRaise_settings index s)⟩
  | crcError => exact ⟨_, rfl, .inl (KeepsSettings.ite rfl rfl)⟩
  | frameMalformed => exact ⟨_, rfl, .inl (receive_settings (f := countMalformed) (fun _ => rfl) s)⟩
  | rxHello sender seen => exact ⟨_, rfl, .inl (receive_settings (intact_settings (takeHello_settings sender seen)) s)⟩
  | rxClose sender => exact ⟨_, rfl, .inl (receive_settings (intact_settings (takeClose_settings sender)) s)⟩
  | rxIdle sender => exact ⟨_, rfl, .inl (receive_settings (intact_settings (f := fun s => s) .refl) s)⟩
  | rxEvent f => exact ⟨_, rfl, .inl (receive_settings (takeEvent_settings f) s)⟩
  | rxAck next => exact ⟨_, rfl, .inl (receive_settings (takeAck_settings next) s)⟩
  | rxProbe number t1 => exact ⟨_, rfl, .inl (receive_settings (f := takeProbe number t1) (fun _ => .ite rfl rfl) s)⟩
  | rxEcho number t1 t2 t3 part => exact ⟨_, rfl, .inl (rxEcho_settings number t1 t2 t3 part s)⟩
  | frameTransmit => exact ⟨_, rfl, .inl (KeepsSettings.ite rfl rfl)⟩
  | frameSent => exact ⟨_, rfl, .inl (frameSent_settings s)⟩
  | helloTimer => exact ⟨_, rfl, .inl (KeepsSettings.ite rfl rfl)⟩
  | openTimeout => exact ⟨_, rfl, .inl (KeepsSettings.ite (sessionFails_settings _ s) rfl)⟩
  | keepalive => exact ⟨_, rfl, .inl (KeepsSettings.ite rfl rfl)⟩
  | silenceTimeout => exact ⟨_, rfl, .inl (KeepsSettings.ite (sessionFails_settings _ s) rfl)⟩
  | probeAttemptEnd =>
    exact ⟨_, rfl, .inl (KeepsSettings.ite (KeepsSettings.ite rfl (sessionFails_settings _ s)) rfl)⟩
  | probeTimer => exact ⟨_, rfl, .inl (KeepsSettings.ite rfl rfl)⟩
  | ackTimeout => exact ⟨_, rfl, .inl (ackTimeout_settings s)⟩
  | stalenessTimeout => exact ⟨_, rfl, .inl (KeepsSettings.ite (KeepsSettings.ite rfl rfl) rfl)⟩
  | tick => exact ⟨_, rfl, .inl (KeepsSettings.ite rfl rfl)⟩

/-- R14, R70, R85: a sort of setting that no command taken by the step writes is kept. -/
theorem MaySet.keeps {i : Instr} {s t : State} (h : MaySet i s t) :
    (¬ Takes Command.setsRoutes i → t.settings.routes = s.settings.routes)
    ∧ (¬ Takes Command.setsInputs i → t.settings.inputs = s.settings.inputs)
    ∧ (¬ Takes Command.setsOutputs i → t.settings.outputs = s.settings.outputs) := by
  rcases h with h | ⟨c, hc, h⟩
  · exact ⟨fun _ => congrArg _ h, fun _ => congrArg _ h, fun _ => congrArg _ h⟩
  · have other : ∀ {sort : Command → Bool}, ¬ Takes sort i → sort c = false := fun hn =>
      Bool.eq_false_iff.2 fun hs => hn (takes_of_takesCommand hc hs)
    exact ⟨fun hn => h.routes (other hn), fun hn => h.inputs (other hn), fun hn => h.outputs (other hn)⟩

/-- Settles O11: every meaning keeps the settings that are not those of a command it takes (`exec_settings`). -/
theorem settingsChangeOnlyByTheirCommands : Obligations.SettingsChangeOnlyByTheirCommands := by
  intro i s t ht hr
  obtain ⟨u, hu, hset⟩ := exec_settings hr s
  cases hu.symm.trans ht
  obtain ⟨routes, inputs, outputs⟩ := hset.keeps
  refine ⟨fun hn e => ?_, fun hn n => ?_, fun hn n => ?_⟩
  · exact Prod.mk.inj (congrFun (routes hn) e)
  · exact congrFun (inputs hn) n
  · obtain ⟨hmode, h⟩ := Prod.mk.inj (congrFun (outputs hn) n)
    exact ⟨hmode, Prod.mk.inj h⟩

end Sys2Proof.Machine
end

section
/-! PROOFS. The Release Unit's takes (O43), and the Output Unit's takes of requests and the ends of its pulses (O44). -/

namespace Sys2Proof.Machine

/-! ### The Release Unit's takes (R40, R41, R43) -/

section
variable {s : State}

theorem holdRelease_due {h : HoldEntry} {rest : List HoldEntry} (hp : s.part = .running) (hd : s.delivery = none)
    (hh : s.hold = h :: rest) (due : h.release ≤ s.localTime) : holdRelease s = { s with
      hold := rest
      holdCounters := { s.holdCounters with released := bump s.holdCounters.released }
      delivery := some (h.deliver s.localTime) } := by
  simp [holdRelease, hp, hd, hh, due]

theorem holdRelease_not_due {h : HoldEntry} {rest : List HoldEntry} (hh : s.hold = h :: rest)
    (early : s.localTime < h.release) : holdRelease s = s := by
  simp [holdRelease, hh, Nat.not_le.2 early]

theorem holdRelease_empty (hh : s.hold = []) : holdRelease s = s := by
  simp [holdRelease, hh]

theorem handoverTake_waiting {h : Handover} (hp : s.part = .running) (hd : s.delivery = none)
    (hh : s.handover = some h) :
    handoverTake s = { s with handover := none, delivery := some (h.deliver s.localTime) } := by
  simp [handoverTake, hp, hd, hh]

theorem handoverTake_none (hh : s.handover = none) : handoverTake s = s := by
  simp [handoverTake, hh]

/-- R40, R41: the guard of both takes. -/
theorem release_guard_fails (busy : s.delivery ≠ none ∨ s.part ≠ .running) :
    ¬ (s.part = .running ∧ s.delivery = none) := fun ⟨hp, hd⟩ =>
  busy.elim (fun h => h hd) (fun h => h hp)

theorem holdRelease_busy (busy : s.delivery ≠ none ∨ s.part ≠ .running) : holdRelease s = s :=
  if_neg (release_guard_fails busy)

theorem handoverTake_busy (busy : s.delivery ≠ none ∨ s.part ≠ .running) : handoverTake s = s :=
  if_neg (release_guard_fails busy)

end

/-- Settles O43: the two takes by what waits for them, `exec` answering with the state each leaves. -/
theorem releaseUnitTakesDueHeadOrHandover : Obligations.ReleaseUnitTakesDueHeadOrHandover := by
  intro s
  have hold : ∀ {t}, holdRelease s = t → exec .holdRelease s = .next t := congrArg Host.Outcome.next
  have handover : ∀ {t}, handoverTake s = t → exec .handoverTake s = .next t := congrArg Host.Outcome.next
  exact ⟨fun h rest hp hd hh =>
      ⟨fun due => hold (holdRelease_due hp hd hh due), fun early => hold (holdRelease_not_due hh early)⟩,
    fun h hp hd hh => handover (handoverTake_waiting hp hd hh),
    fun busy => ⟨hold (holdRelease_busy busy), handover (handoverTake_busy busy)⟩,
    fun hh => hold (holdRelease_empty hh),
    fun hh => handover (handoverTake_none hh)⟩

/-! ### A request on an output line (R88 to R90) -/

/-- R89: the level a level event sets; `none` for a pulse and a mark. -/
def EventKind.levelSet : EventKind → Option Level
  | .rise => some .high
  | .fall => some .low
  | .state l => some l
  | .pulse _ => none
  | .mark _ => none

section
variable {kind : EventKind} {level : Level} {o : OutputLine} (start finish : Int) (now : Nat)

theorem OutputLine.act_of_levelSet (h : kind.levelSet = some level) :
    o.act kind start now = some (o.applyLevel level) := by
  cases kind with
  | pulse | mark => cases h
  | rise | fall | state =>
    cases h
    rfl

theorem OutputLine.act_of_not_mark (h : ∀ word, kind ≠ .mark word) : ∃ r, o.act kind start now = some r := by
  cases kind with
  | mark word => exact absurd rfl (h word)
  | rise | fall | state | pulse => exact ⟨_, rfl⟩

theorem OutputLine.applyLevel_pulsing (h : o.pulse ≠ none) : (o.applyLevel level).1 = { o with
    resting := level, pulse := none
    counters := { o.counters with truncated := bump o.counters.truncated, applied := bump o.counters.applied } } := by
  simp [applyLevel, Option.isSome_iff_ne_none.2 h]

theorem OutputLine.applyLevel_same (hp : o.pulse = none) (hl : o.resting = level) :
    (o.applyLevel level).1 = { o with counters := { o.counters with redundant := bump o.counters.redundant } } := by
  simp [applyLevel, hp, hl]

theorem OutputLine.applyLevel_other (hp : o.pulse = none) (hl : o.resting ≠ level) : (o.applyLevel level).1 = { o with
    resting := level, counters := { o.counters with applied := bump o.counters.applied } } := by
  simp [applyLevel, hp, hl.symm]

theorem OutputLine.applyPulse_line : (o.applyPulse finish now).1 = { o with
    pulse := if finish ≤ (now : Int) then none else some finish
    counters := if o.pulse = none then { o.counters with applied := bump o.counters.applied }
      else { o.counters with retriggered := bump o.counters.retriggered } } := by
  cases h : o.pulse <;> simp [applyPulse, h]

theorem OutputLine.request_acts {running : Bool} {r : OutputLine × LineOutcome}
    (hacts : running = true ∧ o.mode = .routed) (hr : o.act kind start now = some r) :
    o.request kind start now running = r.1 := by
  simp [request, hr, hacts]

theorem OutputLine.request_blocked {running : Bool} (hacts : ¬ (running = true ∧ o.mode = .routed))
    (hkind : ∀ word, kind ≠ .mark word) : o.request kind start now running
      = { o with counters := { o.counters with blocked := bump o.counters.blocked } } := by
  obtain ⟨r, hr⟩ := act_of_not_mark (o := o) start now hkind
  simp only [request, hr]
  exact if_neg (by simpa using hacts)

end

/-! ### The Output Unit's takes and the ends of pulses (R44, R68, R91) -/

/-- R44, R88: the request of the delivery in progress for a line of its output set is taken: the line becomes what the
request makes of it, and the delivery keeps its other requests and its records, and ends when none is left. -/
theorem exec_applicationRequest_taken {s : State} {d : Delivery} {n : Fin 16} (hd : s.delivery = some d)
    (hn : d.outputs.getLsbD n.val = true) :
    exec (.applicationRequest n) s = .next (State.settled { s with
      outputs := s.outputs.set n
        (s.outputs[n].request d.event.kind ((d.time : Int) + d.shift) s.localTime (s.part == .running))
      delivery := Delivery.left { d with outputs := without d.outputs n.val } }) := by
  refine congrArg Host.Outcome.next ?_
  simp only [applicationRequest, hd, hn, if_true, settle_eq_settled, setOutput]

theorem setOutput_self (n : Fin 16) (s : State) : setOutput n s.outputs[n] s = s := by
  simp [setOutput]

theorem exec_pulseEnd (n : Fin 16) (s : State) :
    exec (.pulseEnd n) s = .next (setOutput n (s.outputs[n].expire s.localTime) s) := rfl

theorem OutputLine.expire_due {o : OutputLine} {finish : Int} {now : Nat} (hp : o.pulse = some finish)
    (due : finish ≤ (now : Int)) : o.expire now = { o with pulse := none } := by
  simp [expire, hp, due]

theorem OutputLine.expire_not_due {o : OutputLine} {finish : Int} {now : Nat} (hp : o.pulse = some finish)
    (early : (now : Int) < finish) : o.expire now = o := by
  simp [expire, hp, Int.not_le.2 early]

theorem OutputLine.expire_no_pulse {o : OutputLine} (hp : o.pulse = none) (now : Nat) : o.expire now = o := by
  simp [expire, hp]

/-- Settles O44: the take (`exec_applicationRequest_taken`) with the line that each request makes, and the expiry of a
pulse by its end. -/
theorem outputUnitTakesRequestsAndEndsPulses : Obligations.OutputUnitTakesRequestsAndEndsPulses := by
  refine ⟨fun s d n hd hn => ?_, fun s n => ⟨fun finish hp due => ?_, fun finish hp early => ?_, fun hp => ?_⟩⟩
  · intro o left taken level acts
    have take : ∀ {o1}, o.request d.event.kind ((d.time : Int) + d.shift) s.localTime (s.part == .running) = o1 →
        exec (.applicationRequest n) s = .next (taken o1) := by
      rintro _ rfl
      exact exec_applicationRequest_taken hd hn
    have hacts : acts ↔ (s.part == .running) = true ∧ o.mode = .routed := by simp [acts]
    have act : ∀ {r}, acts → o.act d.event.kind ((d.time : Int) + d.shift) s.localTime = some r →
        exec (.applicationRequest n) s = .next (taken r.1) := fun ha hr =>
      take (OutputLine.request_acts _ _ (hacts.1 ha) hr)
    refine ⟨fun word hk => take ?mark, fun hblocked hk => take ?blocked, fun l ha hl hp => ?pulsing,
      fun l ha hl hp hr => ?same, fun l ha hl hp hr => ?other, fun width ha hk => ?pulse⟩
    case mark => rw [hk]; rfl
    case blocked => exact OutputLine.request_blocked _ _ (hblocked ∘ hacts.2) hk
    case pulsing => rw [act ha (OutputLine.act_of_levelSet _ _ hl), OutputLine.applyLevel_pulsing hp]
    case same => rw [act ha (OutputLine.act_of_levelSet _ _ hl), OutputLine.applyLevel_same hp hr]
    case other => rw [act ha (OutputLine.act_of_levelSet _ _ hl), OutputLine.applyLevel_other hp hr]
    case pulse =>
      intro finish
      rw [act ha (r := o.applyPulse finish s.localTime) (by rw [hk]; rfl), OutputLine.applyPulse_line]
  · rw [exec_pulseEnd, OutputLine.expire_due hp due]
    rfl
  · rw [exec_pulseEnd, OutputLine.expire_not_due hp early, setOutput_self]
  · rw [exec_pulseEnd, OutputLine.expire_no_pulse hp, setOutput_self]

end Sys2Proof.Machine
end

section
/-! PROOFS. Local time: TICK, TIME_READ and TIME_SET (O58), and that local time changes only at a TICK, an accepted
TIME_SET and a device reset (O10). -/

namespace Sys2Proof.Machine

/-! ### TICK, TIME_READ and TIME_SET (R60, R63 to R65, R67 to R69, R170) -/

/-- R173: what a TICK makes of a deferred command, in the words of O58. -/
theorem Deferred.tick_eq (d : Deferred) : d.tick = match d.job with
    | .quiesce deadline elapsed => { d with job := .quiesce deadline (elapsed + 1) }
    | _ => d := by
  obtain ⟨tag, job⟩ := d
  cases job <;> rfl

/-- R60: local time is held while RESET_N is asserted. -/
theorem tick_held {s : State} (h : s.resetHeld = true) : tick s = s := if_pos h

theorem tick_counts {s : State} (h : s.resetHeld = false) : tick s = { onLink Link.tick s with
    localTime := s.localTime + 1, deferred := s.deferred.map Deferred.tick } :=
  if_neg (by simp [h])

/-- R64: a TIME_READ completes OK with local time. -/
theorem timeRead_done {s : State} {g : Geometry} (r : Ready s g) (tag : Word) : exec (.timeRead tag) s
    = .next (s.commandDone g [] (.completion 0x0B tag .ok (lowWord s.localTime) (highWord s.localTime) 0)) :=
  congrArg Host.Outcome.next (runCommand_commandDone r r.running r.free rfl)

/-- R65 to R69: the state after an accepted TIME_SET to `t`. -/
theorem stepTime_eq (t : Nat) (s : State) :
    let step : Int := (t : Int) - (s.localTime : Int)
    stepTime t s = { s with
      localTime := t
      inputs := Vector.ofFn fun n => s.inputs[n].stable
      outputs := Vector.ofFn fun n => { s.outputs[n] with pulse := s.outputs[n].pulse.map (· + step) }
      delivery := s.delivery.map fun d => { d with shift := d.shift + step }
      link := s.link.timeStep
      raises := if s.link.session = .up then s.raises ++ [⟨.alignStale, 0⟩] else s.raises } := by
  unfold stepTime
  split <;> rfl

/-- The books of the take are no part of what an accepted TIME_SET changes. -/
theorem stepTime_taken (t : Nat) (s : State) (g : Geometry) :
    stepTime t (s.taken g []) = (stepTime t s).taken g [] := by
  simp only [stepTime_eq]
  rfl

/-- R65: a TIME_SET in range with an empty Hold Queue completes OK with the time before. -/
theorem timeSet_accepted {s : State} {g : Geometry} (r : Ready s g) {time : Quad}
    (hf : FieldsInRange s (.timeSet time)) (hh : s.hold = []) (tag : Word) : exec (.timeSet tag time) s
      = .next (State.commandDone g [] (.completion 0x0C tag .ok (lowWord s.localTime) (highWord s.localTime) 0)
          (stepTime time.toNat s)) := by
  have executed : timeSetExecution time .nothing (s.taken g [])
      = ((stepTime time.toNat s).taken g [], .done .ok (lowWord s.localTime) (highWord s.localTime) 0) := by
    have empty : (s.taken g []).hold.isEmpty = true := List.isEmpty_iff.2 hh
    simp only [timeSetExecution, whole, (timeSetInRange_iff s time).2 hf, empty, if_true, stepTime_taken]
    rfl
  refine congrArg Host.Outcome.next (runCommand_commandDone r ?_ ?_ executed)
  · rw [stepTime_eq]; exact r.running
  · rw [stepTime_eq]; exact r.free

/-- R65, R170: a TIME_SET in range with entries held completes NOT_EMPTY with their number. -/
theorem timeSet_notEmpty {s : State} {g : Geometry} (r : Ready s g) {time : Quad}
    (hf : FieldsInRange s (.timeSet time)) (hh : s.hold ≠ []) (tag : Word) : exec (.timeSet tag time) s
      = .next (s.commandDone g [] (.completion 0x0C tag .notEmpty (BitVec.ofNat 32 s.hold.length) 0 0)) := by
  have executed : timeSetExecution time .nothing (s.taken g [])
      = (s.taken g [], .done .notEmpty (BitVec.ofNat 32 s.hold.length) 0 0) := by
    have held : ¬ (s.taken g []).hold.isEmpty = true := mt List.isEmpty_iff.1 hh
    simp only [timeSetExecution, whole, (timeSetInRange_iff s time).2 hf, if_true, if_neg held]
    rfl
  exact congrArg Host.Outcome.next (runCommand_commandDone r r.running r.free executed)

/-- Settles O58: the tick (`tick_held`, `tick_counts`), and the completions of TIME_READ and TIME_SET. -/
theorem tickTimeReadAndTimeSet : Obligations.TickTimeReadAndTimeSet := by
  refine ⟨fun s => ⟨fun h => ?_, fun h => ?_⟩, fun s g tag r => timeRead_done r tag, fun s g tag time r hf => ?_⟩
  · exact congrArg Host.Outcome.next (tick_held h)
  · have counted : s.deferred.map Deferred.tick = s.deferred.map fun d => match d.job with
        | .quiesce deadline elapsed => { d with job := .quiesce deadline (elapsed + 1) }
        | _ => d := List.map_congr_left fun d _ => d.tick_eq
    refine congrArg Host.Outcome.next ((tick_counts h).trans ?_)
    rw [counted]
    rfl
  · refine ⟨fun hh => (timeSet_accepted r hf hh tag).trans ?_, fun hh => timeSet_notEmpty r hf hh tag⟩
    rw [stepTime_eq]
    rfl

/-! ### What keeps local time (R60, R65)

The frame lemma of each operation: local time after it is local time before it. -/

/-- An operation that acts under a condition keeps local time when its effect does. -/
theorem ite_localTime {c : Prop} [Decidable c] {s t u : State} (ht : t.localTime = s.localTime)
    (hu : u.localTime = s.localTime) : (if c then t else u).localTime = s.localTime := by
  split
  · exact ht
  · exact hu

theorem OnlyOfferFields.localTime {s t : State} (h : OnlyOfferFields s t) : t.localTime = s.localTime := by
  unfold OnlyOfferFields at h
  rw [h]

theorem OnlyDecisionFields.localTime {s t : State} (h : OnlyDecisionFields s t) : t.localTime = s.localTime := by
  unfold OnlyDecisionFields at h
  rw [h]

/-! #### Records, completions and commands taken -/

@[simp] theorem takeRaise_localTime (r : Raise) (s : State) : (takeRaise r s).localTime = s.localTime := by
  rw [takeRaise_eq]

@[simp] theorem takeRecord_localTime (ring : Fin 4) (r : HostRecord) (s : State) :
    (takeRecord ring r s).localTime = s.localTime := by
  rw [takeRecord_eq]

@[simp] theorem handCompletion_localTime (kind : Byte) (tag : Word) (st : Status) (w1 w2 w3 : Word) (s : State) :
    (handCompletion kind tag st w1 w2 w3 s).localTime = s.localTime := by
  rw [handCompletion_eq]

@[simp] theorem finishDeferred_localTime (k : DeferredKind) (st : Status) (w1 w2 w3 : Word) (s : State) :
    (finishDeferred k st w1 w2 w3 s).localTime = s.localTime := by
  rw [finishDeferred_eq]

@[simp] theorem settle_localTime (s : State) : (settle s).localTime = s.localTime := by
  rw [settle_eq]

@[simp] theorem finishImmediate_localTime (kind : Byte) (tag : Word) (st : Status) (w1 w2 w3 : Word) (s : State) :
    (finishImmediate kind tag st w1 w2 w3 s).localTime = s.localTime := by
  rw [finishImmediate_eq]

@[simp] theorem commandFetch_localTime (s : State) : (commandFetch s).localTime = s.localTime := by
  rw [commandFetch_eq]

@[simp] theorem takeCommand_localTime (s : State) : (takeCommand s).localTime = s.localTime := by
  rw [takeCommand_eq]

@[simp] theorem takeCommand_hold (s : State) : (takeCommand s).hold = s.hold := by
  rw [takeCommand_eq]

@[simp] theorem commandIndexWritten_localTime (s : State) : (commandIndexWritten s).localTime = s.localTime := by
  rw [commandIndexWritten_eq]

@[simp] theorem finishQuiesce_localTime (st : Status) (s : State) : (finishQuiesce st s).localTime = s.localTime := by
  unfold finishQuiesce
  split <;> simp

@[simp] theorem answerCommand_localTime (kind : Byte) (tag : Word) (a : Answer) (s : State) :
    (answerCommand kind tag a s).localTime = s.localTime := by
  cases a <;> simp [answerCommand]

@[simp] theorem abortDeferred_localTime (s : State) : (abortDeferred s).localTime = s.localTime := by
  have fold : ∀ (ds : List Deferred) (t : State), (ds.foldl abortOne t).localTime = t.localTime := by
    intro ds
    induction ds with
    | nil => exact fun _ => rfl
    | cons d ds ih => exact fun t => (ih _).trans (handCompletion_localTime _ _ _ _ _ _ t)
  exact fold s.deferred s

theorem quiesceDeadline_localTime (s : State) : (quiesceDeadline s).localTime = s.localTime := by
  unfold quiesceDeadline
  split
  · exact ite_localTime (by simp) rfl
  · rfl

theorem statsReadDone_localTime (s : State) : (statsReadDone s).localTime = s.localTime := by
  unfold statsReadDone
  split
  · exact ite_localTime (by simp) rfl
  · rfl

theorem faultRaise_localTime (index : Nat) (s : State) : (faultRaise index s).localTime = s.localTime := by
  unfold faultRaise
  split
  · rfl
  · exact takeRaise_localTime _ _

theorem recordWriteDone_localTime (target : WriteTarget) (s : State) :
    (recordWriteDone target s).localTime = s.localTime := by
  cases target with
  | completionRing =>
    refine ite_localTime ?_ rfl
    unfold completionWritten
    split
    · rfl
    · split <;> rfl
  | eventRing ring =>
    refine ite_localTime ?_ rfl
    unfold eventWritten
    split
    · rfl
    · split <;> rfl
  | index field =>
    refine ite_localTime ?_ rfl
    unfold indexWritten
    split
    · cases field <;> rfl
    · rfl
  | statsBuffer =>
    refine ite_localTime ?_ rfl
    unfold bufferWritten
    split
    · rfl
    · dsimp only
      split <;> rfl
  | issued index =>
    simp only [recordWriteDone, issuedWritten]
    split
    · rfl
    · exact ite_localTime rfl rfl

/-! #### The Capture Unit -/

@[simp] theorem offerEvent_localTime (e : Event) (s : State) : (offerEvent e s).localTime = s.localTime := by
  rw [offerEvent_eq]

@[simp] theorem loseToFull_localTime (n : Fin 16) (l : InputLine) (s : State) :
    (loseToFull n l s).localTime = s.localTime := rfl

@[simp] theorem loseToClosed_localTime (n : Fin 16) (l : InputLine) (s : State) :
    (loseToClosed n l s).localTime = s.localTime := rfl

@[simp] theorem offerEdge_localTime (n : Fin 16) (l : InputLine) (e : Event) (level : Level) (window : Option Nat)
    (s : State) : (offerEdge n l e level window s).localTime = s.localTime := by
  unfold offerEdge
  split <;> simp

@[simp] theorem acceptChange_localTime (n : Fin 16) (l : InputLine) (stamp : Nat) (s : State) :
    (acceptChange n l stamp s).localTime = s.localTime :=
  ite_localTime (ite_localTime rfl (offerEdge_localTime _ _ _ _ _ s)) rfl

@[simp] theorem rawChange_localTime (n : Fin 16) (level : Level) (s : State) :
    (rawChange n level s).localTime = s.localTime := by
  refine ite_localTime rfl (ite_localTime ?_ rfl)
  split
  · rfl
  · exact ite_localTime (acceptChange_localTime _ _ _ s) rfl

@[simp] theorem filterAccept_localTime (n : Fin 16) (s : State) : (filterAccept n s).localTime = s.localTime := by
  unfold filterAccept
  dsimp only
  split
  · rfl
  · exact ite_localTime (acceptChange_localTime _ _ _ s) rfl

@[simp] theorem spacingEnd_localTime (n : Fin 16) (s : State) : (spacingEnd n s).localTime = s.localTime := by
  unfold spacingEnd
  dsimp only
  split
  · rfl
  · refine ite_localTime ?_ rfl
    split <;> simp

@[simp] theorem offerState_localTime (n : Fin 16) (s : State) : (offerState n s).localTime = s.localTime :=
  (offerState_only n s).localTime

@[simp] theorem announceLine_localTime (n : Fin 16) (s : State) : (announceLine n s).localTime = s.localTime := by
  refine ite_localTime rfl ?_
  split <;> simp

@[simp] theorem announceNext_localTime (k : Nat) (s : State) : (announceNext k s).localTime = s.localTime := by
  induction k generalizing s with
  | zero => rfl
  | succ k ih =>
    simp only [announceNext]
    split
    · rfl
    · exact (ih _).trans (announceLine_localTime _ _)

/-! #### The Router and the Release Unit -/

theorem routerTake_localTime (pause : Option DecisionStage) (s : State) :
    (routerTake pause s).localTime = s.localTime := by
  refine ite_localTime ?_ rfl
  split
  · exact (settle_localTime _).trans ((resumeDecision_only _ _ _).localTime)
  · rfl
  · exact (settle_localTime _).trans ((decideEvent_only _ _ _).localTime)

theorem holdRelease_localTime (s : State) : (holdRelease s).localTime = s.localTime := by
  refine ite_localTime ?_ rfl
  split
  · rfl
  · exact ite_localTime rfl rfl

theorem handoverTake_localTime (s : State) : (handoverTake s).localTime = s.localTime := by
  refine ite_localTime ?_ rfl
  split <;> rfl

theorem applicationRequest_localTime (line : Fin 16) (s : State) :
    (applicationRequest line s).localTime = s.localTime := by
  unfold applicationRequest
  split
  · rfl
  · exact ite_localTime (settle_localTime _) rfl

theorem eventRecordTake_localTime (poster : Poster) (s : State) :
    (eventRecordTake poster s).localTime = s.localTime := by
  refine ite_localTime ?_ rfl
  cases poster with
  | release ring =>
    dsimp only
    split
    · rfl
    · exact ite_localTime (by simp) rfl
  | faultUnit | linkController =>
    dsimp only
    split
    · exact takeRecord_localTime _ _ _
    · rfl

/-! #### The link -/

@[simp] theorem enterFailed_localTime (r : Reason) (s : State) : (enterFailed r s).localTime = s.localTime := by
  rw [enterFailed_eq]

@[simp] theorem enterClosed_localTime (r : Reason) (sendClose : Bool) (s : State) :
    (enterClosed r sendClose s).localTime = s.localTime := by
  rw [enterClosed_eq]

@[simp] theorem enterUp_localTime (pause : Option Nat) (s : State) : (enterUp pause s).localTime = s.localTime := by
  refine (announceNext_localTime _ _).trans ?_
  rw [finishLinkOpen_eq, postLinkNotice_eq]
  rfl

theorem receive_localTime {f : State → State} (hf : ∀ s, (f s).localTime = s.localTime) (s : State) :
    (receive f s).localTime = s.localTime :=
  ite_localTime rfl ((settle_localTime _).trans (hf _))

/-- R101: a frame with a sender session of 0 is counted, and any other is taken. -/
theorem intact_localTime {sender : Half} {f : State → State} (hf : ∀ s, (f s).localTime = s.localTime) (s : State) :
    (if sender = 0 then countMalformed s else f s).localTime = s.localTime := ite_localTime rfl (hf s)

theorem takeHello_localTime (sender seen : Half) (s : State) : (takeHello sender seen s).localTime = s.localTime := by
  unfold takeHello
  split
  · rfl
  · rfl
  · rfl
  · exact ite_localTime rfl (enterFailed_localTime _ s)
  · exact ite_localTime rfl (enterFailed_localTime _ s)

theorem takeClose_localTime (sender : Half) (s : State) : (takeClose sender s).localTime = s.localTime :=
  ite_localTime (enterClosed_localTime _ _ s) rfl

theorem takeEvent_localTime (f : RxEventFields) (s : State) : (takeEvent f s).localTime = s.localTime := by
  unfold takeEvent
  split
  · exact ite_localTime rfl rfl
  · refine ite_localTime (ite_localTime ?_ (ite_localTime rfl rfl)) rfl
    unfold takeExpected
    split
    · exact offerEvent_localTime _ _
    · rfl
    · rfl

theorem takeAck_localTime (next : Byte) (s : State) : (takeAck next s).localTime = s.localTime :=
  ite_localTime (ite_localTime rfl (ite_localTime rfl rfl)) rfl

theorem takeEcho_localTime (number : Byte) (t1 t2 t3 : Quad) (pause : Option Nat) (s : State) :
    (takeEcho number t1 t2 t3 pause s).localTime = s.localTime := by
  refine ite_localTime ?_ rfl
  split
  · exact ite_localTime (ite_localTime (enterUp_localTime pause _) rfl) rfl
  · rfl

theorem rxEcho_localTime (number : Byte) (t1 t2 t3 : Quad) (part : EchoPart) (s : State) :
    (rxEcho number t1 t2 t3 part s).localTime = s.localTime := by
  cases part with
  | frame pause => exact receive_localTime (takeEcho_localTime number t1 t2 t3 pause) s
  | announce pause => exact ite_localTime (announceNext_localTime _ s) rfl

theorem frameSent_localTime (s : State) : (frameSent s).localTime = s.localTime := by
  unfold frameSent
  split <;> rfl

/-- R107, R109, R112, R125: a timer that fails the session. -/
theorem sessionFails_localTime (r : Reason) (s : State) : (settle (enterFailed r s)).localTime = s.localTime := by
  simp

theorem ackTimeout_localTime (s : State) : (ackTimeout s).localTime = s.localTime := by
  refine ite_localTime ?_ rfl
  split
  · rfl
  · exact ite_localTime rfl (sessionFails_localTime _ s)

/-! #### Part states (9.1) -/

@[simp] theorem offersLate_localTime (late : List LateOffer) (s : State) :
    (offersLate late s).localTime = s.localTime := by
  have one : ∀ (x : LateOffer) (t : State), (offerLate x t).localTime = t.localTime := by
    intro x t
    cases x with
    | edge line => exact filterAccept_localTime line t
    | unfiltered line level => exact rawChange_localTime line level t
    | catchUp line => exact spacingEnd_localTime line t
    | announce => exact announceNext_localTime 1 t
    | frame f => exact receive_localTime (takeEvent_localTime f) t
  have fold : ∀ t : State, (late.foldl (fun t x => offerLate x t) t).localTime = t.localTime := by
    induction late with
    | nil => exact fun _ => rfl
    | cons x xs ih => exact fun t => (ih _).trans (one x t)
  exact fold { s with intakeOpen := false }

@[simp] theorem closeAtStop_localTime (s : State) : (closeAtStop s).localTime = s.localTime :=
  ite_localTime rfl (enterClosed_localTime _ _ s)

@[simp] theorem closeAtHalt_localTime (s : State) : (closeAtHalt s).localTime = s.localTime := ite_localTime rfl rfl

@[simp] theorem enterStopping_localTime (late : List LateOffer) (s : State) :
    (enterStopping late s).localTime = s.localTime := by
  simp [enterStopping, discardEvents]

/-- R53: the entry to STOPPING empties the Hold Queue. -/
theorem enterStopping_hold (late : List LateOffer) (s : State) : (enterStopping late s).hold = [] := by
  simp [enterStopping, discardEvents]

@[simp] theorem enterHalted_localTime (late : List LateOffer) (s : State) :
    (enterHalted late s).localTime = s.localTime := by
  simp [enterHalted, discardEvents]

theorem startPart_localTime (s : State) : (startPart s).localTime = s.localTime :=
  ite_localTime rfl (ite_localTime (ite_localTime rfl rfl) rfl)

theorem setupReadDone_localTime (b : SetupBlock) (s : State) : (setupReadDone b s).localTime = s.localTime := by
  unfold setupReadDone
  split
  · exact ite_localTime rfl rfl
  · rfl

theorem statusBlockInitDone_localTime (s : State) : (statusBlockInitDone s).localTime = s.localTime := by
  unfold statusBlockInitDone
  split <;> rfl

theorem stoppingEnd_localTime (s : State) : (stoppingEnd s).localTime = s.localTime :=
  ite_localTime (commandIndexWritten_localTime s) rfl

/-! #### The register window and STATS_READ -/

theorem submit_localTime (word : Word) (s : State) : (submit word s).localTime = s.localTime := by
  unfold submit
  split
  · exact ite_localTime (commandFetch_localTime _) rfl
  · rfl

theorem release_localTime (word : Word) (s : State) : (release word s).localTime = s.localTime := by
  unfold release
  split
  · split
    · exact commandFetch_localTime _
    · rfl
  · rfl

theorem stopPart_localTime (late : List LateOffer) (s : State) : (stopPart none late s).localTime = s.localTime :=
  ite_localTime (enterStopping_localTime late s) rfl

/-- R137: a word without the RESET bit written to CONTROL. -/
theorem control_localTime {word : Word} (h : word.getLsbD 2 = false) (s : State) :
    (control word s).localTime = s.localTime := by
  unfold control
  simp only [h, Bool.false_eq_true, if_false]
  exact ite_localTime (startPart_localTime s) (ite_localTime (stopPart_localTime [] s) rfl)

theorem clearIn_localTime (item : StatsItem) (s : State) : (item.clearIn s).localTime = s.localTime := by
  cases item with
  | globalCounter k =>
    simp only [StatsItem.clearIn, clearGlobal]
    split <;> rfl
  | _ => rfl

theorem statsItemRead_localTime (board : BitVec 16) (s : State) : (statsItemRead board s).localTime = s.localTime := by
  unfold statsItemRead
  split
  · split
    · rfl
    · exact ite_localTime (clearIn_localTime _ _) rfl
  · rfl

/-! ### Commands and local time (R65)

`SetsTime c falls s t`: the command is a TIME_SET in range, executed from `s` with an empty Hold Queue, and `t` has the
time it names. Every execution sets time in this way or keeps it, whatever falls inside. -/

/-- R65: a TIME_SET takes effect. A STOP that falls before its one request empties the Hold Queue (R53; log entry
10). -/
def SetsTime (c : Command) (falls : Falls) (s t : State) : Prop :=
  ∃ time : Quad, c = .timeSet time ∧ time.toNat < 2 ^ 63 ∧ t.localTime = time.toNat
    ∧ (s.hold = [] ∨ ∃ late, falls = .stop 0 late)

/-- What is done behind an execution and keeps local time does not hide that the command set it. -/
theorem SetsTime.congr {c : Command} {falls : Falls} {s s' t t' : State} (h : SetsTime c falls s t)
    (hs : s'.hold = s.hold) (ht : t'.localTime = t.localTime) : SetsTime c falls s' t' := by
  obtain ⟨time, hc, hrange, htime, hhold⟩ := h
  exact ⟨time, hc, hrange, ht.trans htime, by rwa [hs]⟩

/-- An execution keeps local time, whatever falls inside it. -/
def Execution.KeepsTime (x : Execution) : Prop :=
  ∀ (falls : Falls) (s : State), (x falls s).1.localTime = s.localTime

/-- A command with one request, which does not touch local time. -/
theorem whole_keepsTime {f : State → State × Answer} (hf : ∀ s, (f s).1.localTime = s.localTime) :
    (whole f).KeepsTime := by
  rintro (_ | ⟨_ | n, late⟩ | ⟨_ | n⟩) s
  · exact hf s
  · exact (hf _).trans (enterStopping_localTime late s)
  · exact (enterStopping_localTime late _).trans (hf s)
  · rfl
  · exact hf s

theorem rejected_keepsTime (status : Status) : (whole (rejected status)).KeepsTime := whole_keepsTime fun _ => rfl

/-- A command with one request under a check, which touches local time neither way. -/
theorem checked_keepsTime {c : State → Prop} [DecidablePred c] {f g : State → State × Answer}
    (hf : ∀ s, (f s).1.localTime = s.localTime) (hg : ∀ s, (g s).1.localTime = s.localTime) :
    (whole fun s => if c s then f s else g s).KeepsTime := by
  refine whole_keepsTime fun s => ?_
  split
  · exact hf s
  · exact hg s

theorem makeOffers_keepsTime (w : OfferSet) : (makeOffers w).KeepsTime := by
  have advanced : ∀ (k : Nat) (s : State), (w.advance k s).1.localTime = s.localTime := fun k s =>
    (OfferSet.advance_only k w s).localTime
  intro falls s
  cases falls with
  | nothing => exact advanced _ s
  | stop requests late => exact (enterStopping_localTime late _).trans (advanced requests s)
  | others requests => exact advanced requests s

theorem refreshExecution_keepsTime (tag lines : Word) : (refreshExecution tag lines).KeepsTime := by
  intro falls s
  unfold refreshExecution
  split
  · exact makeOffers_keepsTime _ falls s
  · exact rejected_keepsTime _ falls s

theorem routeSetExecution_keepsTime (tag : Word) (f : RouteSetFields) : (routeSetExecution tag f).KeepsTime := by
  intro falls s
  unfold routeSetExecution
  split
  · split
    · exact makeOffers_keepsTime _ falls (replaceRoute f s)
    · exact whole_keepsTime (f := fun s => (replaceRoute f s, _)) (fun _ => rfl) falls s
  · exact rejected_keepsTime _ falls s

theorem routeClearExecution_keepsTime (f : RouteClearFields) : (routeClearExecution f).KeepsTime := by
  refine checked_keepsTime (fun s => ?_) fun _ => rfl
  dsimp only
  split <;> rfl

theorem changeRouteState_localTime (target : RouteState) (source : Half) (s : State) :
    (changeRouteState target source s).1.localTime = s.localTime := by
  unfold changeRouteState
  split
  · dsimp only
    split <;> rfl
  · rfl

theorem outputSetExecution_keepsTime (f : OutputSetFields) : (outputSetExecution f).KeepsTime := by
  refine checked_keepsTime (fun s => ?_) fun _ => rfl
  dsimp only
  split
  · split <;> rfl
  · rfl

theorem scheduleExecution_keepsTime (f : ScheduleFields) : (scheduleExecution f).KeepsTime := by
  refine whole_keepsTime fun s => ?_
  split
  · rfl
  · split
    · exact offerEvent_localTime _ s
    · rfl
    · rfl

theorem linkOpenExecution_keepsTime (tag : Word) (f : LinkOpenFields) : (linkOpenExecution tag f).KeepsTime := by
  refine checked_keepsTime (fun s => ?_) fun _ => rfl
  split <;> rfl

theorem quiesceExecution_keepsTime (tag deadline : Word) : (quiesceExecution tag deadline).KeepsTime := by
  refine checked_keepsTime (fun _ => rfl) fun s => ?_
  split
  · rfl
  · exact settle_localTime _

theorem statsReadExecution_keepsTime (tag : Word) (f : StatsReadFields) : (statsReadExecution tag f).KeepsTime := by
  refine checked_keepsTime (fun s => ?_) fun _ => rfl
  split <;> rfl

theorem fenceExecution_keepsTime (tag : Word) : (fenceExecution tag).KeepsTime :=
  checked_keepsTime (fun _ => rfl) fun _ => settle_localTime _

/-- R65: a TIME_SET with nothing inside its execution. -/
theorem timeSetExecution_alone (time : Quad) (s : State) :
    (timeSetExecution time .nothing s).1.localTime = s.localTime
    ∨ time.toNat < 2 ^ 63 ∧ s.hold = [] ∧ (timeSetExecution time .nothing s).1.localTime = time.toNat := by
  by_cases hrange : timeSetInRange time = true
  · by_cases hhold : s.hold.isEmpty = true
    · refine .inr ⟨(timeSetInRange_iff s time).1 hrange, List.isEmpty_iff.1 hhold, ?_⟩
      simp only [timeSetExecution, whole, hrange, hhold, if_true, stepTime_eq]
    · exact .inl (by simp only [timeSetExecution, whole, hrange, if_true, if_neg hhold])
  · exact .inl (by simp only [timeSetExecution, whole, if_neg hrange, rejected])

/-- R65: a TIME_SET keeps local time or sets it, whatever falls inside its execution. -/
theorem timeSetExecution_time (time : Quad) (falls : Falls) (s : State) :
    (timeSetExecution time falls s).1.localTime = s.localTime
    ∨ SetsTime (.timeSet time) falls s (timeSetExecution time falls s).1 := by
  have taken : ∀ {t : State}, t.localTime = (timeSetExecution time .nothing s).1.localTime →
      t.localTime = s.localTime ∨ SetsTime (.timeSet time) falls s t := by
    intro t ht
    refine (timeSetExecution_alone time s).imp ht.trans ?_
    rintro ⟨hrange, hhold, htime⟩
    exact ⟨time, rfl, hrange, ht.trans htime, .inl hhold⟩
  rcases falls with _ | ⟨_ | n, late⟩ | ⟨_ | n⟩
  · exact taken rfl
  · refine (timeSetExecution_alone time (enterStopping late s)).imp
      (fun kept => Eq.trans kept (enterStopping_localTime late s)) ?_
    rintro ⟨hrange, -, htime⟩
    exact ⟨time, rfl, hrange, htime, .inr ⟨late, rfl⟩⟩
  · exact taken (enterStopping_localTime late _)
  · exact .inl rfl
  · exact taken rfl

/-- R60, R65: every command keeps local time or is a TIME_SET that sets it, whatever falls inside its execution. -/
theorem executionOf_time (tag : Word) (c : Command) (falls : Falls) (s : State) :
    (executionOf tag c falls s).1.localTime = s.localTime ∨ SetsTime c falls s (executionOf tag c falls s).1 := by
  cases c with
  | timeSet time => exact timeSetExecution_time time falls s
  | unknown kind => exact .inl (rejected_keepsTime _ falls s)
  | routeSet f => exact .inl (routeSetExecution_keepsTime tag f falls s)
  | routeClear f => exact .inl (routeClearExecution_keepsTime f falls s)
  | routeSuspend source => exact .inl (whole_keepsTime (changeRouteState_localTime _ source) falls s)
  | routeResume source => exact .inl (whole_keepsTime (changeRouteState_localTime _ source) falls s)
  | lineInConfig f => exact .inl (checked_keepsTime (fun _ => rfl) (fun _ => rfl) falls s)
  | lineOutConfig f => exact .inl (checked_keepsTime (fun _ => rfl) (fun _ => rfl) falls s)
  | outputSet f => exact .inl (outputSetExecution_keepsTime f falls s)
  | schedule f => exact .inl (scheduleExecution_keepsTime f falls s)
  | cancel eventTag => exact .inl (whole_keepsTime (fun _ => rfl) falls s)
  | refresh lines => exact .inl (refreshExecution_keepsTime tag lines falls s)
  | timeRead => exact .inl (whole_keepsTime (fun _ => rfl) falls s)
  | linkOpen f => exact .inl (linkOpenExecution_keepsTime tag f falls s)
  | linkClose => exact .inl (whole_keepsTime (fun s => ite_localTime rfl (enterClosed_localTime _ _ s)) falls s)
  | quiesce deadline => exact .inl (quiesceExecution_keepsTime tag deadline falls s)
  | openIntake => exact .inl (whole_keepsTime (fun _ => finishQuiesce_localTime _ _) falls s)
  | statsRead f => exact .inl (statsReadExecution_keepsTime tag f falls s)
  | faults f => exact .inl (checked_keepsTime (fun _ => rfl) (fun _ => rfl) falls s)
  | fence => exact .inl (fenceExecution_keepsTime tag falls s)

@[simp] theorem abortLeftovers_localTime (s : State) : (abortLeftovers s).localTime = s.localTime :=
  ite_localTime (by simp) rfl

/-- What a step that takes the command `c` may do to local time. -/
def MayTakeTime (c : Command) (falls : Falls) (s t : State) : Prop :=
  t.localTime = s.localTime ∨ s.part = .running ∧ SetsTime c falls s t

/-- R147: an execution from the take, in RUNNING, and what is done behind it. -/
theorem taken_time (tag : Word) (c : Command) (falls : Falls) {s t : State} (hp : s.part = .running)
    (ht : t.localTime = (executionOf tag c falls (takeCommand s)).1.localTime) : MayTakeTime c falls s t :=
  (executionOf_time tag c falls (takeCommand s)).imp (fun kept => ht.trans (kept.trans (takeCommand_localTime s)))
    fun sets => ⟨hp, sets.congr (takeCommand_hold s).symm ht⟩

theorem runCommand_time (falls : Falls) (kind : Byte) (tag : Word) (c : Command) (s : State) :
    MayTakeTime c falls s (runCommand falls kind tag (executionOf tag c) s) := by
  unfold runCommand
  split
  · rename_i h
    exact taken_time tag c falls h.1 (by simp)
  · exact .inl rfl

theorem goOnOffering_localTime (pause : Option Nat) (w : OfferSet) (s : State) :
    (goOnOffering pause w s).localTime = s.localTime := by
  unfold goOnOffering
  rw [commandFetch_localTime, answerCommand_localTime]
  split
  · exact makeOffers_keepsTime w _ _
  all_goals rfl

theorem runOffering_time (pause : Option Nat) (tag : Word) (c : Command) (s : State) :
    ∃ falls, (∀ n late, falls ≠ .stop n late)
      ∧ MayTakeTime c falls s (runOffering pause tag c (executionOf tag c) s) := by
  refine ⟨fallsOf pause, fun n late => by cases pause <;> simp [fallsOf], ?_⟩
  unfold runOffering
  split
  · exact runCommand_time _ _ tag c s
  · exact .inl (ite_localTime (goOnOffering_localTime _ _ s) rfl)

/-! ### STOP and a bus-master error inside an execution (R140, R141, R160) -/

theorem stopPart_time (o : Overtaken) (late : List LateOffer) (s : State) :
    MayTakeTime o.command (.stop o.requests late) s (stopPart (some o) late s) := by
  unfold stopPart
  split
  · dsimp only
    split
    · exact runCommand_time _ _ _ _ s
    · exact .inl (enterStopping_localTime late s)
  · exact .inl rfl

theorem executedSoFar_time {o : Overtaken} {s : State} (hp : s.part = .running) :
    MayTakeTime o.command (.others o.requests) s (executedSoFar o s) := by
  refine taken_time o.tag o.command _ hp ?_
  unfold executedSoFar
  dsimp only
  split <;> rfl

theorem haltPart_time (o : Overtaken) (late : List LateOffer) (indexed : Bool) (s : State) :
    MayTakeTime o.command (.others o.requests) s (haltPart (some o) late indexed s) := by
  unfold haltPart
  dsimp only
  split
  · rename_i h
    have halted : (enterHalted late (if indexed then commandIndexWritten (executedSoFar o s)
        else executedSoFar o s)).localTime = (executedSoFar o s).localTime :=
      (enterHalted_localTime late _).trans (ite_localTime (commandIndexWritten_localTime _) rfl)
    exact (executedSoFar_time h.1).imp halted.trans (And.imp_right fun sets => sets.congr rfl halted)
  · exact .inl (enterHalted_localTime late s)

/-- R138, R141: a bus-master error keeps local time where it does not halt the part. -/
theorem busMasterError_halts_or_keepsTime (during : Option Overtaken) (late : List LateOffer) (indexed : Bool)
    (s : State) : busMasterError during late indexed s = haltPart during late indexed s
      ∨ (busMasterError during late indexed s).localTime = s.localTime := by
  unfold busMasterError
  split
  · exact .inr rfl
  · exact .inl rfl
  · exact .inl rfl
  · exact .inr rfl
  · exact .inr rfl

/-! ### Every step -/

/-- R60, R65: the ways in which a step may move local time, as O10 lists them. -/
def MovesTime (i : Instr) (s t : State) : Prop :=
  (i = .tick ∧ t.localTime = s.localTime + 1)
  ∨ (Resets i ∧ t.localTime = 0)
  ∨ ∃ (time : Quad) (tag : Word), s.part = .running ∧ time.toNat < 2 ^ 63 ∧ t.localTime = time.toNat
      ∧ (((i = .timeSet tag time ∨ ∃ n late, i = .stop (some ⟨tag, .timeSet time, n⟩) late
            ∨ ∃ indexed, i = .busMasterError (some ⟨tag, .timeSet time, n⟩) late indexed) ∧ s.hold = [])
        ∨ ∃ late, i = .stop (some ⟨tag, .timeSet time, 0⟩) late)

/-- A step keeps local time or moves it in one of its ways. -/
def TimeKeptOrMoved (i : Instr) (s t : State) : Prop := t.localTime = s.localTime ∨ MovesTime i s t

theorem exec_takeUpTo_time (pause : Option Nat) (tag : Word) (c : Command) (s : State) :
    ∃ t, exec (takeUpTo pause tag c) s = .next t ∧ TimeKeptOrMoved (takeUpTo pause tag c) s t := by
  have moved : ∀ {falls : Falls} {t : State}, (∀ n late, falls ≠ .stop n late) → MayTakeTime c falls s t →
      TimeKeptOrMoved (takeUpTo pause tag c) s t := by
    intro falls t alone
    refine Or.imp_right ?_
    rintro ⟨hp, time, rfl, hrange, htime, hhold⟩
    have empty : s.hold = [] := hhold.resolve_right fun ⟨late, h⟩ => alone 0 late h
    exact .inr (.inr ⟨time, tag, hp, hrange, htime, .inl ⟨.inl rfl, empty⟩⟩)
  obtain ⟨t, ht, rfl | ⟨kind, rfl⟩ | ⟨p, rfl⟩⟩ := exec_takeUpTo pause tag c s
  · exact ⟨_, ht, .inl rfl⟩
  · exact ⟨_, ht, moved (by simp) (runCommand_time .nothing kind tag c s)⟩
  · obtain ⟨falls, alone, h⟩ := runOffering_time p tag c s
    exact ⟨_, ht, moved alone h⟩

theorem stopPart_timeMoved (during : Option Overtaken) (late : List LateOffer) (s : State) :
    TimeKeptOrMoved (.stop during late) s (stopPart during late s) := by
  cases during with
  | none => exact .inl (stopPart_localTime late s)
  | some o =>
    obtain ⟨tag, c, requests⟩ := o
    refine (stopPart_time _ late s).imp_right ?_
    rintro ⟨hp, time, rfl, hrange, htime, hhold⟩
    refine .inr (.inr ⟨time, tag, hp, hrange, htime, ?_⟩)
    refine hhold.imp (fun empty => ⟨.inr ⟨requests, late, .inl rfl⟩, empty⟩) ?_
    rintro ⟨_, ⟨⟩⟩
    exact ⟨late, rfl⟩

theorem busMasterError_timeMoved (during : Option Overtaken) (late : List LateOffer) (indexed : Bool) (s : State) :
    TimeKeptOrMoved (.busMasterError during late indexed) s (busMasterError during late indexed s) := by
  rcases busMasterError_halts_or_keepsTime during late indexed s with halts | kept
  · rw [halts]
    cases during with
    | none => exact .inl (enterHalted_localTime late s)
    | some o =>
      obtain ⟨tag, c, requests⟩ := o
      refine (haltPart_time _ late indexed s).imp_right ?_
      rintro ⟨hp, time, rfl, hrange, htime, hhold⟩
      have empty : s.hold = [] := hhold.resolve_right (by simp)
      exact .inr (.inr ⟨time, tag, hp, hrange, htime, .inl ⟨.inr ⟨requests, late, .inr ⟨indexed, rfl⟩⟩, empty⟩⟩)
  · exact .inl kept

/-- R142: a device reset makes local time 0. -/
theorem timeMoved_of_reset {i : Instr} (h : Resets i) (s : State) : TimeKeptOrMoved i s (deviceReset s) :=
  .inr (.inr (.inl ⟨h, rfl⟩))

/-- R137, R199: a register write keeps local time, or it is a device reset. -/
theorem registerWrite_timeMoved (offset count : Nat) (word : Word) (s : State) :
    TimeKeptOrMoved (.registerWrite offset count word) s (registerWrite offset count word s) := by
  unfold registerWrite
  split
  · exact .inl rfl
  · rename_i hw
    obtain ⟨-, rfl⟩ : s.resetHeld = false ∧ count = 4 := by simpa using hw
    split
    · by_cases hreset : word.getLsbD 2 = true
      · rw [control, if_pos hreset]
        exact timeMoved_of_reset (.inr (.inr (.inr ⟨word, rfl, hreset⟩))) s
      · exact .inl (control_localTime (by simpa using hreset) s)
    · exact .inl rfl
    · exact .inl rfl
    · exact .inl (submit_localTime word s)
    · exact .inl (release_localTime word s)
    · exact .inl (ite_localTime rfl rfl)
    · exact .inl (ite_localTime rfl rfl)
    · exact .inl rfl

theorem tick_timeMoved (s : State) : TimeKeptOrMoved .tick s (tick s) := by
  by_cases h : s.resetHeld = true
  · exact .inl (by rw [tick_held h])
  · exact .inr (.inl ⟨rfl, by rw [tick_counts (by simpa using h)]⟩)

/-- R60, R65: every step keeps local time or moves it in one of its ways. -/
theorem exec_time (i : Instr) (s : State) : ∃ t, exec i s = .next t ∧ TimeKeptOrMoved i s t := by
  cases i with
  | start => exact ⟨_, rfl, .inl (startPart_localTime s)⟩
  | stop during late => exact ⟨_, rfl, stopPart_timeMoved during late s⟩
  | reset => exact ⟨_, rfl, timeMoved_of_reset (.inl rfl) s⟩
  | resetNAssert => exact ⟨_, rfl, timeMoved_of_reset (.inr (.inr (.inl rfl))) s⟩
  | resetNRelease => exact ⟨_, rfl, .inl rfl⟩
  | functionReset => exact ⟨_, rfl, timeMoved_of_reset (.inr (.inl rfl)) s⟩
  | setupReadDone block => exact ⟨_, rfl, .inl (setupReadDone_localTime block s)⟩
  | statusBlockInitDone => exact ⟨_, rfl, .inl (statusBlockInitDone_localTime s)⟩
  | stoppingEnd => exact ⟨_, rfl, .inl (stoppingEnd_localTime s)⟩
  | busMasterError during late indexed => exact ⟨_, rfl, busMasterError_timeMoved during late indexed s⟩
  | submit word => exact ⟨_, rfl, .inl (submit_localTime word s)⟩
  | release word => exact ⟨_, rfl, .inl (release_localTime word s)⟩
  | intCause word | intEnable word => exact ⟨_, rfl, .inl (ite_localTime rfl rfl)⟩
  | registerWrite offset count word => exact ⟨_, rfl, registerWrite_timeMoved offset count word s⟩
  | unknownCommand tag kind => exact exec_takeUpTo_time none tag (.unknown kind) s
  | routeSet tag f pause => exact exec_takeUpTo_time pause tag (.routeSet f) s
  | routeClear tag f => exact exec_takeUpTo_time none tag (.routeClear f) s
  | routeSuspend tag source => exact exec_takeUpTo_time none tag (.routeSuspend source) s
  | routeResume tag source => exact exec_takeUpTo_time none tag (.routeResume source) s
  | lineInConfig tag f => exact exec_takeUpTo_time none tag (.lineInConfig f) s
  | lineOutConfig tag f => exact exec_takeUpTo_time none tag (.lineOutConfig f) s
  | outputSet tag f => exact exec_takeUpTo_time none tag (.outputSet f) s
  | schedule tag f => exact exec_takeUpTo_time none tag (.schedule f) s
  | cancel tag eventTag => exact exec_takeUpTo_time none tag (.cancel eventTag) s
  | refresh tag lines pause => exact exec_takeUpTo_time pause tag (.refresh lines) s
  | timeRead tag => exact exec_takeUpTo_time none tag .timeRead s
  | timeSet tag time => exact exec_takeUpTo_time none tag (.timeSet time) s
  | linkOpen tag f => exact exec_takeUpTo_time none tag (.linkOpen f) s
  | linkClose tag => exact exec_takeUpTo_time none tag .linkClose s
  | quiesce tag deadline => exact exec_takeUpTo_time none tag (.quiesce deadline) s
  | openIntake tag => exact exec_takeUpTo_time none tag .openIntake s
  | statsRead tag f => exact exec_takeUpTo_time none tag (.statsRead f) s
  | faults tag f => exact exec_takeUpTo_time none tag (.faults f) s
  | fence tag => exact exec_takeUpTo_time none tag .fence s
  | quiesceDeadline => exact ⟨_, rfl, .inl (quiesceDeadline_localTime s)⟩
  | statsItemRead board => exact ⟨_, rfl, .inl (statsItemRead_localTime board s)⟩
  | statsReadDone => exact ⟨_, rfl, .inl (statsReadDone_localTime s)⟩
  | routerTake pause => exact ⟨_, rfl, .inl (routerTake_localTime pause s)⟩
  | holdRelease => exact ⟨_, rfl, .inl (holdRelease_localTime s)⟩
  | handoverTake => exact ⟨_, rfl, .inl (handoverTake_localTime s)⟩
  | applicationRequest line => exact ⟨_, rfl, .inl (applicationRequest_localTime line s)⟩
  | pulseEnd line => exact ⟨_, rfl, .inl (setOutput_localTime _ _ _)⟩
  | eventRecordTake poster => exact ⟨_, rfl, .inl (eventRecordTake_localTime poster s)⟩
  | recordWriteDone target => exact ⟨_, rfl, .inl (recordWriteDone_localTime target s)⟩
  | rawChange line level => exact ⟨_, rfl, .inl (rawChange_localTime line level s)⟩
  | filterAccept line => exact ⟨_, rfl, .inl (filterAccept_localTime line s)⟩
  | spacingEnd line => exact ⟨_, rfl, .inl (spacingEnd_localTime line s)⟩
  | faultRaise index => exact ⟨_, rfl, .inl (faultRaise_localTime index s)⟩
  | frameMalformed => exact ⟨_, rfl, .inl (receive_localTime (f := countMalformed) (fun _ => rfl) s)⟩
  | rxHello sender seen =>
    exact ⟨_, rfl, .inl (receive_localTime (intact_localTime (takeHello_localTime sender seen)) s)⟩
  | rxClose sender => exact ⟨_, rfl, .inl (receive_localTime (intact_localTime (takeClose_localTime sender)) s)⟩
  | rxIdle sender => exact ⟨_, rfl, .inl (receive_localTime (intact_localTime (f := fun s => s) fun _ => rfl) s)⟩
  | rxEvent f => exact ⟨_, rfl, .inl (receive_localTime (takeEvent_localTime f) s)⟩
  | rxAck next => exact ⟨_, rfl, .inl (receive_localTime (takeAck_localTime next) s)⟩
  | rxProbe number t1 =>
    exact ⟨_, rfl, .inl (receive_localTime (f := takeProbe number t1) (fun _ => ite_localTime rfl rfl) s)⟩
  | rxEcho number t1 t2 t3 part => exact ⟨_, rfl, .inl (rxEcho_localTime number t1 t2 t3 part s)⟩
  | frameSent => exact ⟨_, rfl, .inl (frameSent_localTime s)⟩
  | crcError | frameTransmit | helloTimer | keepalive | probeTimer => exact ⟨_, rfl, .inl (ite_localTime rfl rfl)⟩
  | openTimeout | silenceTimeout => exact ⟨_, rfl, .inl (ite_localTime (sessionFails_localTime _ s) rfl)⟩
  | probeAttemptEnd =>
    exact ⟨_, rfl, .inl (ite_localTime (ite_localTime rfl (sessionFails_localTime _ s)) rfl)⟩
  | ackTimeout => exact ⟨_, rfl, .inl (ackTimeout_localTime s)⟩
  | stalenessTimeout => exact ⟨_, rfl, .inl (ite_localTime (ite_localTime rfl rfl) rfl)⟩
  | tick => exact ⟨_, rfl, tick_timeMoved s⟩

/-- Settles O10: a step that does not keep local time moves it in one of the listed ways (`exec_time`). -/
theorem localTimeChangesOnlyByTickSetReset : Obligations.LocalTimeChangesOnlyByTickSetReset := by
  intro i s t ht changed
  obtain ⟨u, hu, kept | moved⟩ := exec_time i s
  · cases hu.symm.trans ht
    exact absurd kept changed
  · cases hu.symm.trans ht
    exact moved

end Sys2Proof.Machine
end

section
/-! PROOFS. The input lines: the glitch filter and the spacing window (O49), and the two commands that replace the
settings of a line (O27). -/

namespace Sys2Proof.Machine

/-! ### Edges and their offers (R6, R70, R74, R75) -/

/-- R70: the changes a mode selects, in the words of O49. -/
theorem InMode.selects_iff (m : InMode) (level : Level) : m.selects level = true ↔
    m = .both ∨ (m = .riseOnly ∧ level = .high) ∨ (m = .fallOnly ∧ level = .low) := by
  cases m <;> cases level <;> simp [selects, Level.isHigh]

theorem edgeKind_eq (level : Level) : edgeKind level = if level = .high then .rise else .fall := by
  cases level <;> rfl

theorem windowAfter_eq (l : InputLine) (stamp now : Nat) : windowAfter l stamp now
    = if l.config.spacing = 0 ∨ stamp + l.config.spacing.toNat ≤ now then none
      else some (stamp + l.config.spacing.toNat) := by
  unfold windowAfter
  by_cases hs : l.config.spacing = 0
  · rw [if_pos hs, if_pos (.inl hs)]
  · simp only [hs, false_or, if_false]

@[simp] theorem setInput_setInput (n : Fin 16) (l l' : InputLine) (s : State) :
    setInput n l (setInput n l' s) = setInput n l s := by
  simp [setInput]

section
variable {s : State} (n : Fin 16) (l : InputLine) (e : Event) (level : Level) (window : Option Nat)

/-- R74: an accepted event is the newest of the intake, and its line counts it and states its level. -/
theorem offerEdge_accepted (hopen : s.intakeOpen = true) (hroom : s.intake.length < 64) :
    offerEdge n l e level window s = { setInput n { l with
        reported := level
        spacingEnd := window
        counters := { l.counters with captured := bump l.counters.captured } } s with
      intake := s.intake ++ [e] } := by
  have answer : offerAnswer s = .accepted := (offerAnswer_accepted_iff s).2 ⟨hopen, hroom⟩
  simp only [offerEdge, offerEvent, answer, setInput]

theorem offerEdge_full (hopen : s.intakeOpen = true) (hfull : 64 ≤ s.intake.length) :
    offerEdge n l e level window s = loseToFull n l s := by
  simp only [offerEdge, (offerAnswer_full_iff s).2 ⟨hopen, hfull⟩]

theorem offerEdge_closed (hclosed : s.intakeOpen = false) :
    offerEdge n l e level window s = loseToClosed n l s := by
  simp only [offerEdge, (offerAnswer_closed_iff s).2 hclosed]

end

@[simp] theorem offerAnswer_setInput (n : Fin 16) (l : InputLine) (s : State) :
    offerAnswer (setInput n l s) = offerAnswer s := rfl

theorem offerEvent_setInput (n : Fin 16) (l : InputLine) (e : Event) (s : State) :
    offerEvent e (setInput n l s) = setInput n l (offerEvent e s) := by
  simp only [offerEvent, offerAnswer_setInput]
  cases offerAnswer s <;> rfl

/-- R6, R74: an edge offered overwrites its line, and the intake's answer does not read the lines. -/
theorem offerEdge_setInput (n : Fin 16) (l l' : InputLine) (e : Event) (level : Level) (window : Option Nat)
    (s : State) : offerEdge n l e level window (setInput n l' s) = offerEdge n l e level window s := by
  simp only [offerEdge, offerAnswer_setInput]
  cases offerAnswer s with
  | accepted => simp only [offerEvent_setInput, setInput_setInput]
  | full => simp only [loseToFull, setInput_setInput]
  | closed => simp only [loseToClosed, setInput_setInput]

/-! ### A change accepted (R73, R74, R76) -/

section
variable {n : Fin 16} {l : InputLine} (stamp : Nat) (s : State)

theorem acceptChange_unselected (h : l.config.mode.selects l.raw = false) :
    acceptChange n l stamp s = setInput n { l with accepted := l.raw, candidate := none } s := by
  simp [acceptChange, h]

theorem acceptChange_coalesced (h : l.config.mode.selects l.raw = true) (hw : l.spacingEnd ≠ none) :
    acceptChange n l stamp s = setInput n { l with
      accepted := l.raw, candidate := none, suppressed := true
      counters := { l.counters with coalesced := bump l.counters.coalesced } } s := by
  simp [acceptChange, h, Option.isSome_iff_ne_none.2 hw]

theorem acceptChange_offered (h : l.config.mode.selects l.raw = true) (hw : l.spacingEnd = none) :
    acceptChange n l stamp s = offerEdge n { l with accepted := l.raw, candidate := none }
      (lineEvent n l (edgeKind l.raw) stamp Flags.none) l.raw (windowAfter l stamp s.localTime) s := by
  simp [acceptChange, h, hw]

/-- R73: an accepted change overwrites its line, whatever candidate the line held. -/
theorem acceptChange_setInput (candidate : Option Nat) (l' : InputLine) :
    acceptChange n { l with candidate := candidate } stamp (setInput n l' s) = acceptChange n l stamp s :=
  ite_congr rfl
    (fun _ => ite_congr rfl (fun _ => setInput_setInput _ _ _ _) fun _ => offerEdge_setInput _ _ _ _ _ _ _)
    fun _ => setInput_setInput _ _ _ _

end

section
variable {s : State} {n : Fin 16}

theorem filterAccept_due {start : Nat} (hc : s.inputs[n].candidate = some start)
    (due : start + s.inputs[n].config.filter.toNat ≤ s.localTime) :
    filterAccept n s = acceptChange n s.inputs[n] start s := by
  simp only [filterAccept, hc, if_pos due]

theorem filterAccept_early {start : Nat} (hc : s.inputs[n].candidate = some start)
    (early : s.localTime < start + s.inputs[n].config.filter.toNat) : filterAccept n s = s := by
  simp only [filterAccept, hc, if_neg (Nat.not_le.2 early)]

theorem filterAccept_none (hc : s.inputs[n].candidate = none) : filterAccept n s = s := by
  simp only [filterAccept, hc]

theorem filterAccept_setInput {l : InputLine} {start : Nat} (hc : l.candidate = some start)
    (due : start + l.config.filter.toNat ≤ s.localTime) :
    filterAccept n (setInput n l s) = acceptChange n l start (setInput n l s) := by
  have line : (setInput n l s).inputs[n] = l := by simp
  rw [filterAccept_due (start := start) (by rwa [line]) (by rwa [line]), line]

/-! ### Raw changes (R71 to R73) -/

variable {level : Level}

/-- R72: what it takes for a line to filter. -/
theorem filters_iff (s : State) (l : InputLine) :
    filters s l = true ↔ s.part = .running ∧ l.config.mode ≠ .off := by
  simp [filters]

theorem rawChange_same (hr : s.inputs[n].raw = level) : rawChange n level s = s := if_pos hr

theorem rawChange_unfiltered (hr : s.inputs[n].raw ≠ level) (hf : filters s s.inputs[n] = false) :
    rawChange n level s = setInput n { s.inputs[n] with raw := level }.resetCapture s := by
  simp only [rawChange, if_neg hr, hf, Bool.false_eq_true, if_false]

theorem rawChange_glitch (hr : s.inputs[n].raw ≠ level) (hf : filters s s.inputs[n] = true)
    (hc : s.inputs[n].candidate ≠ none) : rawChange n level s = setInput n { s.inputs[n] with
      raw := level, candidate := none
      counters := { s.inputs[n].counters with glitches := bump s.inputs[n].counters.glitches } } s := by
  obtain ⟨start, hc⟩ := Option.ne_none_iff_exists'.1 hc
  simp only [rawChange, if_neg hr, hf, if_true, hc]

theorem rawChange_opens (hr : s.inputs[n].raw ≠ level) (hf : filters s s.inputs[n] = true)
    (hc : s.inputs[n].candidate = none) (hF : s.inputs[n].config.filter ≠ 0) : rawChange n level s
      = setInput n { s.inputs[n] with raw := level, candidate := some s.localTime } s := by
  simp only [rawChange, if_neg hr, hf, if_true, hc, if_neg hF]

/-- R73: with F = 0 a raw change is accepted at once, as a candidate opened now would be. -/
theorem rawChange_accepted (hr : s.inputs[n].raw ≠ level) (hf : filters s s.inputs[n] = true)
    (hc : s.inputs[n].candidate = none) (hF : s.inputs[n].config.filter = 0) : rawChange n level s
      = filterAccept n (setInput n { s.inputs[n] with raw := level, candidate := some s.localTime } s) := by
  have due : s.localTime + s.inputs[n].config.filter.toNat ≤ s.localTime := by
    rw [hF]
    exact le_rfl
  calc rawChange n level s
      = acceptChange n { s.inputs[n] with raw := level } s.localTime s := by
        simp only [rawChange, if_neg hr, hf, if_true, hc, if_pos hF]
    _ = acceptChange n { s.inputs[n] with raw := level, candidate := some s.localTime } s.localTime
          (setInput n { s.inputs[n] with raw := level, candidate := some s.localTime } s) :=
        (acceptChange_setInput _ _ _ _).symm
    _ = filterAccept n (setInput n { s.inputs[n] with raw := level, candidate := some s.localTime } s) :=
        Eq.symm (filterAccept_setInput rfl (by exact due))

/-! ### The end of a spacing window (R75, R77) -/

theorem spacingEnd_silent {finish : Nat} (hw : s.inputs[n].spacingEnd = some finish) (due : finish ≤ s.localTime)
    (hl : catchUpLevel s.inputs[n] = none) :
    spacingEnd n s = setInput n { s.inputs[n] with spacingEnd := none, suppressed := false } s := by
  simp only [spacingEnd, hw, if_pos due, hl]

theorem spacingEnd_catchUp {finish : Nat} (hw : s.inputs[n].spacingEnd = some finish) (due : finish ≤ s.localTime)
    (hl : catchUpLevel s.inputs[n] = some level) :
    spacingEnd n s = offerEdge n { s.inputs[n] with spacingEnd := none, suppressed := false }
      (lineEvent n s.inputs[n] (edgeKind level) finish { Flags.none with coalesced := true }) level none s := by
  simp only [spacingEnd, hw, if_pos due, hl]

theorem spacingEnd_early {finish : Nat} (hw : s.inputs[n].spacingEnd = some finish) (early : s.localTime < finish) :
    spacingEnd n s = s := by
  simp only [spacingEnd, hw, if_neg (Nat.not_le.2 early)]

theorem spacingEnd_none (hw : s.inputs[n].spacingEnd = none) : spacingEnd n s = s := by
  simp only [spacingEnd, hw]

end

/-- R77: the level that a catch-up event of the line states, in the words of O49. -/
def InputLine.catchUpStates (l : InputLine) : Level :=
  match l.config.mode with
  | .riseOnly => .high
  | .fallOnly => .low
  | .both => l.accepted
  | .off => l.accepted

/-- R77: the line makes a catch-up event at its spacing end. -/
def InputLine.CatchUpDue (l : InputLine) : Prop :=
  l.suppressed = true ∧ l.config.mode ≠ .off ∧ (l.config.mode = .both → l.accepted ≠ l.reported)

theorem catchUpLevel_due {l : InputLine} (due : l.CatchUpDue) : catchUpLevel l = some l.catchUpStates := by
  obtain ⟨suppressed, hmode, differs⟩ := due
  simp only [catchUpLevel, suppressed, if_true, InputLine.catchUpStates]
  cases hm : l.config.mode with
  | off => exact absurd hm hmode
  | riseOnly | fallOnly => rfl
  | both => exact if_neg (differs hm)

theorem catchUpLevel_not_due {l : InputLine} (h : ¬ l.CatchUpDue) : catchUpLevel l = none := by
  unfold catchUpLevel
  split
  · rename_i suppressed
    cases hm : l.config.mode with
    | off => rfl
    | riseOnly | fallOnly => exact absurd ⟨suppressed, by simp [hm], by simp [hm]⟩ h
    | both =>
      refine if_pos ?_
      by_contra differs
      exact h ⟨suppressed, by simp [hm], fun _ => differs⟩
  · rfl

/-- Settles O49: the raw change, the end of a candidate and the end of a window, each by the line's case; an edge and a
catch-up event then go by the intake's answer to their offer. -/
theorem glitchFilterAndSpacingWindow : Obligations.GlitchFilterAndSpacingWindow := by
  refine ⟨fun s n level => ?raw, fun s n => ?candidate, fun s n finish => ?window⟩
  case raw =>
    intro l filtering line
    have change : ∀ {t}, rawChange n level s = t → exec (.rawChange n level) s = .next t :=
      congrArg Host.Outcome.next
    have hf : filters s l = true ↔ filtering := filters_iff s l
    exact ⟨fun hr => change (rawChange_same hr),
      fun hr h => change (rawChange_unfiltered hr (Bool.eq_false_iff.2 (mt hf.1 h))),
      fun hr h hc => change (rawChange_glitch hr (hf.2 h) hc),
      fun hr h hc hF => change (rawChange_opens hr (hf.2 h) hc hF),
      fun hr h hc hF => change (rawChange_accepted hr (hf.2 h) hc hF)⟩
  case candidate =>
    intro l done line selected
    have accept : ∀ {t}, filterAccept n s = t → exec (.filterAccept n) s = .next t := congrArg Host.Outcome.next
    have hsel : l.config.mode.selects l.raw = true ↔ selected := InMode.selects_iff _ _
    refine ⟨fun start hc due => ?_, fun start hc early => accept (filterAccept_early hc early),
      fun hc => accept (filterAccept_none hc)⟩
    have accepted : filterAccept n s = acceptChange n l start s := filterAccept_due hc due
    have offered (h : selected) (hw : l.spacingEnd = none) :=
      accepted.trans (acceptChange_offered start s (hsel.2 h) hw)
    refine ⟨fun h => accept (accepted.trans (acceptChange_unselected _ _ (Bool.eq_false_iff.2 (mt hsel.1 h)))),
      fun h hw => accept (accepted.trans (acceptChange_coalesced _ _ (hsel.2 h) hw)),
      fun h hw hopen hroom => accept ?_,
      fun h hw hopen hfull => accept ((offered h hw).trans (offerEdge_full _ _ _ _ _ hopen hfull)),
      fun h hw hclosed => accept ((offered h hw).trans (offerEdge_closed _ _ _ _ _ hclosed))⟩
    rw [offered h hw, offerEdge_accepted _ _ _ _ _ hopen hroom, windowAfter_eq, edgeKind_eq]
    rfl
  case window =>
    intro l done line level due
    have ends : ∀ {t}, spacingEnd n s = t → exec (.spacingEnd n) s = .next t := congrArg Host.Outcome.next
    refine ⟨fun hw reached => ?_, fun hw early => ends (spacingEnd_early hw early), fun hw => ends (spacingEnd_none hw)⟩
    have offered (h : due) := spacingEnd_catchUp hw reached (catchUpLevel_due h)
    refine ⟨fun h => ends (spacingEnd_silent hw reached (catchUpLevel_not_due h)),
      fun h hopen hroom => ends ?_,
      fun h hopen hfull => ends ((offered h).trans (offerEdge_full _ _ _ _ _ hopen hfull)),
      fun h hclosed => ends ((offered h).trans (offerEdge_closed _ _ _ _ _ hclosed))⟩
    rw [offered h, offerEdge_accepted _ _ _ _ _ hopen hroom, edgeKind_eq]
    rfl

/-! ### LINE_IN_CONFIG and LINE_OUT_CONFIG (R71, R82, R93, R164, R165) -/

/-- 13.1: the level of a level code, by the field itself. -/
theorem levelOf_toNat (b : Byte) : levelOf b.toNat = if b = 0 then .low else .high := by
  simp only [levelOf, ← BitVec.toNat_inj]
  rfl

/-- R71, R82, R164: what a LINE_IN_CONFIG in range makes of its line, the books of the take kept. -/
theorem lineInExecution_taken {s : State} {f : LineInFields} (hf : FieldsInRange s (.lineInConfig f)) (g : Geometry) :
    lineInExecution f .nothing (s.taken g [])
      = (State.taken g []
          (setInput (lineOf f.line) { s.inputs[lineOf f.line] with config := lineInConfigOf f }.resetCapture s),
        .done .ok 0 0 0) :=
  if_pos ((lineInInRange_iff s f).2 hf)

/-- R93, R165: what a LINE_OUT_CONFIG in range makes of its line, the books of the take kept. -/
theorem lineOutExecution_taken {s : State} {f : LineOutFields} (hf : FieldsInRange s (.lineOutConfig f))
    (g : Geometry) : lineOutExecution f .nothing (s.taken g [])
      = (State.taken g [] (setOutput (lineOf f.line) { s.outputs[lineOf f.line] with
            pulse := none
            mode := outModeOf f.mode
            drive := if f.drive = 0 then .pushPull else .openDrain
            polarity := if f.polarity = 0 then .activeHigh else .activeLow
            resting := if f.resting = 0 then .low else .high } s),
        .done .ok 0 0 0) := by
  rw [← levelOf_toNat]
  exact if_pos ((lineOutInRange_iff s f).2 hf)

/-- Settles O27: a command in range completes OK with the line its execution leaves. -/
theorem lineConfigsReplaceSettings : Obligations.LineConfigsReplaceSettings :=
  ⟨fun _ g _ _ r hf => congrArg Host.Outcome.next
      (runCommand_commandDone r r.running r.free (lineInExecution_taken hf g)),
    fun _ g _ _ r hf => congrArg Host.Outcome.next
      (runCommand_commandDone r r.running r.free (lineOutExecution_taken hf g))⟩

end Sys2Proof.Machine
end

section
/-! PROOFS. The output lines: what a line shows, drives and is sampled at (O45), and OUTPUT_SET (O28). -/

namespace Sys2Proof.Machine

/-! ### A line and its pin (R86, R99) -/

theorem Level.flip_eq (l : Level) : l.flip = if l = .low then .high else .low := by
  cases l <;> rfl

section
variable {o : OutputLine}

theorem OutputLine.shown_no_pulse (h : o.pulse = none) : o.shown = o.resting := by
  simp [shown, h]

theorem OutputLine.shown_pulsing (h : o.pulse ≠ none) : o.shown = o.resting.flip := by
  simp [shown, Option.isSome_iff_ne_none.2 h]

theorem OutputLine.pinValue_eq : o.pinValue = if o.polarity = .activeHigh then o.shown else o.shown.flip := by
  unfold pinValue
  cases o.polarity <;> rfl

theorem OutputLine.pin_disabled (h : o.mode = .disabled) : o.pin = .released := by
  simp [pin, h]

theorem OutputLine.pin_enabled (h : o.mode ≠ .disabled) : o.pin
    = if o.pinValue = .low then .drivenLow else if o.drive = .pushPull then .drivenHigh else .released := by
  cases hm : o.mode with
  | disabled => exact absurd hm h
  | routed | host => cases hv : o.pinValue <;> cases hd : o.drive <;> simp [pin, hm, hv, hd]

theorem OutputLine.pin_pushPull (hm : o.mode ≠ .disabled) (hd : o.drive = .pushPull) :
    o.pin = if o.pinValue = .low then .drivenLow else .drivenHigh := by
  simp [pin_enabled hm, hd]

theorem OutputLine.pin_openDrain (hm : o.mode ≠ .disabled) (hd : o.drive = .openDrain) :
    o.pin = if o.pinValue = .low then .drivenLow else .released := by
  simp [pin_enabled hm, hd]

theorem OutputLine.driven_iff : o.driven = true ↔ o.pin ≠ .released := by
  simp [driven]

/-- R99: a pin the part drives is sampled at the pin value, whatever the board gives. -/
theorem OutputLine.sampled_driven (board : Level) (h : o.pin ≠ .released) : o.sampled board = o.pinValue := by
  have hm : o.mode ≠ .disabled := fun hm => h (pin_disabled hm)
  have hpin := pin_enabled hm
  cases hv : o.pinValue with
  | low => simp [sampled, hpin, hv]
  | high =>
    by_cases hd : o.drive = .pushPull
    · simp [sampled, hpin, hv, hd]
    · exact absurd (by simp [hpin, hv, hd]) h

theorem OutputLine.sampled_released (board : Level) (h : o.pin = .released) : o.sampled board = board := by
  simp [sampled, h]

end

/-- Settles O45: the shown level by the pulse, the pin by mode and drive, the sample by whether the pin is driven. -/
theorem outputPinsShowTheirLines : Obligations.OutputPinsShowTheirLines := by
  intro o board inverse shown value
  have hshown : o.shown = shown := by
    by_cases hp : o.pulse = none
    · exact (OutputLine.shown_no_pulse hp).trans (if_pos hp).symm
    · exact (OutputLine.shown_pulsing hp).trans ((Level.flip_eq _).trans (if_neg hp).symm)
  have hvalue : o.pinValue = value := by
    rw [OutputLine.pinValue_eq, hshown, Level.flip_eq]
  have hdriven := o.driven_iff
  rw [← hvalue]
  refine ⟨hshown, rfl, OutputLine.pin_disabled, OutputLine.pin_pushPull, OutputLine.pin_openDrain, hdriven,
    fun h => OutputLine.sampled_driven board (hdriven.1 h), fun h => OutputLine.sampled_released board ?_⟩
  exact not_not.1 fun hpin => by simp [hdriven.2 hpin] at h

/-! ### OUTPUT_SET (R89, R90, R95, R166) -/

section
variable {o : OutputLine} {level : Level} {finish : Int} {now : Nat}

theorem OutputLine.applyLevel_outcome : (o.applyLevel level).2
    = if o.pulse ≠ none then .truncated else if o.resting = level then .redundant else .applied := by
  by_cases hp : o.pulse = none
  · by_cases hl : o.resting = level
    · simp [applyLevel, hp, hl]
    · simp [applyLevel, hp, hl, Ne.symm hl]
  · simp [applyLevel, hp, Option.isSome_iff_ne_none.2 hp]

/-- R89: a level event leaves its line showing the level, with no pulse active. -/
theorem OutputLine.applyLevel_shown : (o.applyLevel level).1.shown = level := by
  by_cases hp : o.pulse = none
  · by_cases hl : o.resting = level
    · rw [applyLevel_same hp hl]
      exact (shown_no_pulse hp).trans hl
    · rw [applyLevel_other hp hl]
      exact shown_no_pulse hp
  · rw [applyLevel_pulsing hp]
    exact shown_no_pulse rfl

theorem OutputLine.applyPulse_outcome :
    (o.applyPulse finish now).2 = if o.pulse = none then .applied else .retriggered := by
  cases hp : o.pulse <;> simp [applyPulse, hp]

/-- R90: a pulse that ends after now is active when its request has been taken. -/
theorem OutputLine.applyPulse_later (later : (now : Int) < finish) : (o.applyPulse finish now).1 = { o with
    pulse := some finish
    counters := if o.pulse = none then { o.counters with applied := bump o.counters.applied }
      else { o.counters with retriggered := bump o.counters.retriggered } } := by
  rw [applyPulse_line, if_neg (Int.not_le.2 later)]

theorem OutputLine.applyPulse_shown (later : (now : Int) < finish) :
    (o.applyPulse finish now).1.shown = o.resting.flip := by
  rw [applyPulse_later later]
  exact shown_pulsing (Option.some_ne_none finish)

end

section
variable {s : State} {g : Geometry} {tag : Word} {f : OutputSetFields}

theorem outputSet_width (hf : FieldsInRange s (.outputSet f)) (ha : f.action = 1) :
    1 ≤ f.width.toNat ∧ f.width.toNat ≤ 65535 := by
  obtain ⟨-, ⟨h, -⟩ | ⟨-, h⟩⟩ := hf
  · exact absurd (ha.symm.trans h) (by decide)
  · exact h

/-- R89, R166: LEVEL acts as a level event of the level its field codes. -/
theorem OutputLine.act_outputSet_level (o : OutputLine) (start : Int) (now : Nat) (ha : f.action = 0) :
    o.act (outputSetKind f) start now = some (o.applyLevel (if f.level = 0 then .low else .high)) := by
  rw [outputSetKind, if_pos ha, levelOf_toNat]
  rfl

/-- R90, R166, log entry 18: PULSE acts as a pulse request of its width. -/
theorem OutputLine.act_outputSet_pulse (o : OutputLine) (start : Int) (now : Nat)
    (hf : FieldsInRange s (.outputSet f)) (ha : f.action = 1) :
    o.act (outputSetKind f) start now = some (o.applyPulse (start + (f.width.toNat : Int)) now) := by
  have width : (f.width.setWidth 16).toNat = f.width.toNat := by
    obtain ⟨-, small⟩ := outputSet_width hf ha
    rw [BitVec.toNat_setWidth]
    omega
  rw [outputSetKind, if_neg (by rw [ha]; decide), ← width]
  rfl

/-- R95, R166: OUTPUT_SET of a HOST line, the part RUNNING: the line becomes what the request `r` makes of it. -/
theorem outputSet_acts (ready : Ready s g) (hf : FieldsInRange s (.outputSet f))
    (hm : s.outputs[lineOf f.line].mode = .host) {r : OutputLine × LineOutcome}
    (hr : s.outputs[lineOf f.line].act (outputSetKind f) (s.localTime : Int) s.localTime = some r) :
    exec (.outputSet tag f) s = .next (State.commandDone g []
      (.completion 0x07 tag .ok (BitVec.ofNat 32 r.2.code) (BitVec.ofNat 32 r.1.shown.code) 0)
      { s with outputs := s.outputs.set (lineOf f.line) r.1 }) := by
  have executed : outputSetExecution f .nothing (s.taken g [])
      = (State.taken g [] { s with outputs := s.outputs.set (lineOf f.line) r.1 },
        .done .ok (BitVec.ofNat 32 r.2.code) (BitVec.ofNat 32 r.1.shown.code) 0) := by
    have hrun : (s.taken g []).outputs[lineOf f.line].mode = .host ∧ (s.taken g []).part = .running :=
      ⟨hm, ready.running⟩
    have hact : (s.taken g []).outputs[lineOf f.line].act (outputSetKind f) ((s.taken g []).localTime : Int)
        (s.taken g []).localTime = some r := hr
    simp only [outputSetExecution, whole]
    rw [if_pos ((outputSetInRange_iff s f).2 hf), if_pos hrun, hact]
    rfl
  exact congrArg Host.Outcome.next (runCommand_commandDone ready ready.running ready.free executed)

/-- R95, R166: OUTPUT_SET of a line in another mode changes nothing, whatever its action. -/
theorem outputSet_wrongMode (ready : Ready s g) (hf : FieldsInRange s (.outputSet f))
    (hm : s.outputs[lineOf f.line].mode ≠ .host) :
    exec (.outputSet tag f) s = .next (s.commandDone g [] (.completion 0x07 tag .wrongMode
      (BitVec.ofNat 32 s.outputs[lineOf f.line].mode.code) 0 0)) := by
  have executed : outputSetExecution f .nothing (s.taken g [])
      = (s.taken g [], .done .wrongMode (BitVec.ofNat 32 s.outputs[lineOf f.line].mode.code) 0 0) := by
    have hnot : ¬ ((s.taken g []).outputs[lineOf f.line].mode = .host ∧ (s.taken g []).part = .running) :=
      fun h => hm h.1
    simp only [outputSetExecution, whole]
    rw [if_pos ((outputSetInRange_iff s f).2 hf), if_neg hnot, if_pos (show (s.taken g []).part = _ from ready.running)]
    rfl
  exact congrArg Host.Outcome.next (runCommand_commandDone ready ready.running ready.free executed)

/-- R89, R95, R166: OUTPUT_SET LEVEL of a HOST line, the part RUNNING: word 2 is the level it states. -/
theorem outputSet_level (ready : Ready s g) (hf : FieldsInRange s (.outputSet f))
    (hm : s.outputs[lineOf f.line].mode = .host) (ha : f.action = 0) {o : OutputLine} {outcome : LineOutcome}
    (ho : (s.outputs[lineOf f.line].applyLevel (if f.level = 0 then .low else .high)).1 = o)
    (hout : (s.outputs[lineOf f.line].applyLevel (if f.level = 0 then .low else .high)).2 = outcome) :
    exec (.outputSet tag f) s = .next (State.commandDone g []
      (.completion 0x07 tag .ok (BitVec.ofNat 32 outcome.code) (if f.level = 0 then 0 else 1) 0)
      { s with outputs := s.outputs.set (lineOf f.line) o }) := by
  subst ho hout
  rw [outputSet_acts ready hf hm (OutputLine.act_outputSet_level _ _ _ ha), OutputLine.applyLevel_shown]
  split <;> rfl

end

/-- Settles O28: the line and the outcome of each request (`outputSet_acts`), and WRONG_MODE. -/
theorem outputSetActsOnHostLine : Obligations.OutputSetActsOnHostLine := by
  refine ⟨fun s g tag f ready hf => ?_, fun s g tag f ready hf => ?_⟩
  · intro n o level shown done
    have outcome := o.applyLevel_outcome (level := level)
    refine ⟨fun hm ha hp => ?truncated, fun hm ha hp hl => ?redundant, fun hm ha hp hl => ?applied, fun hm => ?mode⟩
    case truncated =>
      exact outputSet_level ready hf hm ha (OutputLine.applyLevel_pulsing hp) (outcome.trans (if_pos hp))
    case redundant =>
      exact outputSet_level ready hf hm ha (OutputLine.applyLevel_same hp hl)
        (outcome.trans ((if_neg (not_not.2 hp)).trans (if_pos hl)))
    case applied =>
      exact outputSet_level ready hf hm ha (OutputLine.applyLevel_other hp hl)
        (outcome.trans ((if_neg (not_not.2 hp)).trans (if_neg hl)))
    case mode =>
      have code : BitVec.ofNat 32 o.mode.code = if o.mode = .disabled then 0 else 1 := by
        cases h : o.mode with
        | disabled | routed => rfl
        | host => exact absurd h hm
      rw [← code]
      exact outputSet_wrongMode ready hf hm
  · intro n o hm ha pulsed
    have later : (s.localTime : Int) < (s.localTime : Int) + (f.width.toNat : Int) := by
      obtain ⟨positive, -⟩ := outputSet_width hf ha
      omega
    have outcome : BitVec.ofNat 32 (if o.pulse = none then LineOutcome.applied else .retriggered).code
        = if o.pulse = none then 1 else 4 := by split <;> rfl
    have shown : BitVec.ofNat 32 o.resting.flip.code = if o.resting = .low then 1 else 0 := by
      cases o.resting <;> rfl
    rw [outputSet_acts ready hf hm (OutputLine.act_outputSet_pulse _ _ _ hf ha), OutputLine.applyPulse_outcome,
      OutputLine.applyPulse_shown later, OutputLine.applyPulse_later later, ← outcome, ← shown]
    rfl

end Sys2Proof.Machine
end

section
/-! PROOFS. The span link's context: every step from a sound state keeps it sound (O7). -/

namespace Sys2Proof.Machine

/-! ### The link context (R106, R117, R120, R124, R129)

`Link.InOrder` is the link's own invariant: its context is sound and its window within capacity. Each operation of the
Link Controller keeps it; `KeepsLink s t` says so of a step, and whatever leaves the link alone keeps it at once. -/

/-- The link context is sound, and the window is within its capacity (R120), up to which waiting frames fill it. -/
structure Link.InOrder (l : Link) : Prop where
  sound : l.Sound
  room : l.window.length ≤ Config.windowCapacity

/-! #### The window (R120, R121, R124) -/

theorem Link.sequenced_iff (l : Link) : l.sequenced ↔
    ∀ (i : Nat) (h : i < l.window.length), l.window[i].seq = l.nextSeq - BitVec.ofNat 8 (l.window.length - i) := by
  simp [Link.sequenced, List.ext_getElem_iff]

theorem Link.sequenced_of_empty {l : Link} (h : l.window = []) : l.sequenced := by simp [Link.sequenced, h]

/-- R120: sequence numbers speak of no more than the frames' own and the next. -/
theorem Link.sequenced_of_seqs {l m : Link} (h : l.sequenced) (seqs : m.window.map WindowFrame.seq
    = l.window.map WindowFrame.seq) (next : m.nextSeq = l.nextSeq) : m.sequenced := by
  have length : m.window.length = l.window.length := by simpa using congrArg List.length seqs
  unfold Link.sequenced at h ⊢
  rw [seqs, h, next, length]

/-- R120, R121: a frame that enters the window takes the next sequence number. -/
theorem Link.sequenced_enter {l : Link} (h : l.sequenced) (e : TxEvent) (rest : List TxEvent) :
    ({ l with
        window := l.window ++ [windowFrameOf l.nextSeq e], waiting := rest, nextSeq := l.nextSeq + 1 } : Link).sequenced := by
  rw [Link.sequenced_iff] at h ⊢
  intro i hi
  simp only [List.length_append, List.length_singleton] at hi ⊢
  rcases Nat.lt_or_eq_of_le (Nat.lt_succ_iff.1 hi) with hlt | rfl
  · rw [List.getElem_append_left hlt, h i hlt, show l.window.length + 1 - i = (l.window.length - i) + 1 by omega]
    bv_omega
  · simp only [List.getElem_concat_length, windowFrameOf, Nat.add_sub_cancel_left]
    bv_omega

/-- R123: the frames left after the oldest have gone are sequenced as they were. -/
theorem Link.sequenced_drop {l : Link} (h : l.sequenced) (d : Nat) :
    ({ l with window := l.window.drop d } : Link).sequenced := by
  rw [Link.sequenced_iff] at h ⊢
  intro i hi
  simp only [List.length_drop] at hi
  simp only [List.getElem_drop, List.length_drop, h (d + i) (by omega)]
  rw [Nat.sub_sub]

theorem enterWindow_sequenced (room : Nat) {l : Link} (h : l.sequenced) : (enterWindow room l).sequenced := by
  induction room generalizing l with
  | zero => exact h
  | succ room ih =>
    simp only [enterWindow]
    split
    · exact h
    · exact ih (Link.sequenced_enter h _ _)

/-- R121: frames still wait only when all the room has been taken. -/
theorem enterWindow_full (room : Nat) (l : Link) (h : (enterWindow room l).waiting ≠ []) :
    (enterWindow room l).window.length = l.window.length + room := by
  induction room generalizing l with
  | zero => rfl
  | succ room ih =>
    simp only [enterWindow] at h ⊢
    split at h
    · exact absurd ‹_› h
    · rw [ih _ h]
      simp only [List.length_append, List.length_singleton]
      omega

/-- R121: frames still wait only behind a full window. -/
theorem fillWindow_full {l : Link} (room : l.window.length ≤ Config.windowCapacity) (h : l.fillWindow.waiting ≠ []) :
    l.fillWindow.window.length = Config.windowCapacity :=
  (enterWindow_full _ l h).trans (Nat.add_sub_of_le room)

theorem fillWindow_room {l : Link} (room : l.window.length ≤ Config.windowCapacity) :
    l.fillWindow.window.length ≤ Config.windowCapacity :=
  (enterWindow_window_le _ l).trans_eq (Nat.add_sub_of_le room)

/-- R121: no frame leaves the window when others enter it. -/
theorem enterWindow_window_ge (room : Nat) (l : Link) : l.window.length ≤ (enterWindow room l).window.length := by
  induction room generalizing l with
  | zero => exact le_rfl
  | succ room ih =>
    simp only [enterWindow]
    split
    · exact le_rfl
    · refine le_trans ?_ (ih _)
      simp

/-- R120, R121, R124: in UP waiting frames fill the window, and the ack timer runs exactly while a frame is in it. -/
theorem Link.InOrder.filled {l : Link} (h : l.InOrder) (up : l.session = .up) {ws : List WindowFrame}
    {waiting : List TxEvent} (seqs : ({ l with window := ws, waiting := waiting } : Link).sequenced)
    (room : ws.length ≤ Config.windowCapacity) {timer : Option Nat}
    (running : timer ≠ none ↔ (Link.fillWindow { l with window := ws, waiting := waiting }).window ≠ []) :
    ({ Link.fillWindow { l with window := ws, waiting := waiting } with ackTimer := timer } : Link).InOrder := by
  refine ⟨?_, fillWindow_room room⟩
  have sequenced := enterWindow_sequenced (Config.windowCapacity - ws.length) seqs
  have full := fillWindow_full (l := { l with window := ws, waiting := waiting }) room
  simp only [Link.fillWindow] at running full ⊢
  rw [enterWindow_eq] at sequenced ⊢
  exact { h.sound with
    sequenced := sequenced, ackTimer := running, waiting := full
    queue := fun hu => absurd up hu }

/-- R121, R124: in UP a frame is enqueued. -/
theorem Link.InOrder.enqueue {l : Link} (h : l.InOrder) (up : l.session = .up) (e : TxEvent) :
    (l.enqueue e).InOrder := by
  refine h.filled (ws := l.window) (waiting := l.waiting ++ [e]) up h.sound.sequenced h.room ?_
  set m : Link := { l with waiting := l.waiting ++ [e] }
  have timer : m.fillWindow.ackTimer = l.ackTimer := by rw [Link.fillWindow, enterWindow_eq]
  have grown : l.window ≠ [] → m.fillWindow.window ≠ [] := fun hne hempty => by
    have := enterWindow_window_ge (Config.windowCapacity - m.window.length) m
    rw [← Link.fillWindow, hempty] at this
    exact hne (List.length_eq_zero_iff.1 (Nat.le_zero.1 this))
  change (if l.window.isEmpty && !m.fillWindow.window.isEmpty then some 0 else m.fillWindow.ackTimer) ≠ none ↔
    m.fillWindow.window ≠ []
  rw [timer]
  by_cases hne : l.window = []
  · have stopped : l.ackTimer = none := by_contra fun ht => h.sound.ackTimer.1 ht hne
    by_cases hm : m.fillWindow.window = [] <;> simp [hne, hm, stopped]
  · simpa [hne, grown hne] using h.sound.ackTimer.2 hne

/-- R123, R124: in UP an ACK takes the oldest frames out of the window. -/
theorem Link.InOrder.acknowledge {l : Link} (h : l.InOrder) (up : l.session = .up) (d : Nat) :
    (l.acknowledge d).InOrder := by
  refine h.filled (ws := l.window.drop d) (waiting := l.waiting) up (Link.sequenced_drop h.sound.sequenced d) (le_trans (by simp) h.room) ?_
  cases hw : (Link.fillWindow { l with window := l.window.drop d }).window <;> simp

theorem takePending_seqs {ws : List WindowFrame} {r : List WindowFrame × LaneFrame} (h : takePending ws = some r) :
    r.1.map WindowFrame.seq = ws.map WindowFrame.seq := by
  induction ws generalizing r with
  | nil => cases h
  | cons w ws ih =>
    simp only [takePending] at h
    split at h
    · cases h; rfl
    · obtain ⟨q, hq, rfl⟩ := Option.map_eq_some_iff.1 h
      simp [ih hq]

theorem resendWindow_seqs (ws : List WindowFrame) :
    (resendWindow ws).map WindowFrame.seq = ws.map WindowFrame.seq := by
  cases ws <;> simp [resendWindow, Function.comp_def]

/-- R122, R125: the frames of the window are marked, and none leaves it. -/
theorem Link.InOrder.marked {l : Link} (h : l.InOrder) {ws : List WindowFrame} {timer : Option Nat}
    (seqs : ws.map WindowFrame.seq = l.window.map WindowFrame.seq) (running : timer ≠ none ↔ l.ackTimer ≠ none)
    (lane : Option LaneFrame) : ({ l with window := ws, ackTimer := timer, lane := lane } : Link).InOrder := by
  have length : ws.length = l.window.length := by simpa using congrArg List.length seqs
  have empty : ws = [] ↔ l.window = [] := by rw [← List.length_eq_zero_iff, length, List.length_eq_zero_iff]
  refine ⟨?_, length.trans_le h.room⟩
  exact { h.sound with
    sequenced := Link.sequenced_of_seqs h.sound.sequenced seqs rfl
    queue := fun hu => ⟨empty.2 (h.sound.queue hu).1, (h.sound.queue hu).2⟩
    waiting := fun hw => length.trans (h.sound.waiting hw)
    ackTimer := running.trans (h.sound.ackTimer.trans (not_congr empty.symm)) }

/-! #### Frames made, and the lane (R102, R106, R130) -/

theorem Link.InOrder.makeHello {l : Link} (h : l.InOrder) (hs : l.session = .calling ∨ l.session = .aligning) :
    l.makeHello.InOrder :=
  ⟨{ h.sound with hello := iff_of_true nofun hs }, h.room⟩

theorem Link.InOrder.makeProbe {l : Link} (h : l.InOrder) (hs : l.session = .aligning ∨ l.session = .up) :
    l.makeProbe.InOrder :=
  ⟨{ h.sound with outstanding := fun hn => absurd rfl hn, probes := fun _ => hs }, h.room⟩

/-- R102, R130: the transmitter takes a frame; a PROBE, which only a session in ALIGNING or UP holds, becomes
outstanding. -/
theorem Link.InOrder.transmit {l : Link} (h : l.InOrder) (now : Nat) : (l.transmit now).InOrder := by
  unfold Link.transmit
  split
  · exact ⟨{ h.sound with }, h.room⟩
  split
  · exact ⟨{ h.sound with }, h.room⟩
  split
  · exact ⟨{ h.sound with }, h.room⟩
  split
  · rename_i n rest hp
    have probing := h.sound.probes (hp ▸ List.cons_ne_nil n rest)
    exact ⟨{ h.sound with outstanding := fun _ => probing, probes := fun _ => probing }, h.room⟩
  split
  · exact ⟨{ h.sound with }, h.room⟩
  split
  · rename_i r hr
    exact h.marked (takePending_seqs hr) Iff.rfl (some r.2)
  split
  · exact ⟨{ h.sound with }, h.room⟩
  · exact h

/-! #### Transitions (R105, R108, R110, R117) -/

/-- R117: a move to FAILED or CLOSED leaves nothing queued, outstanding or timed. -/
theorem Link.InOrder.ended {l : Link} (h : l.InOrder) {ses : Session} (hs : ses = .closed ∨ ses = .failed)
    (rs : Reason) (b : Bool) : (l.ended ses rs b).InOrder := by
  have out : ¬ (ses = .aligning ∨ ses = .up) ∧ ses ≠ .calling ∧ ¬ (ses = .calling ∨ ses = .aligning)
      ∧ ses.inCall = false := by
    rcases hs with rfl | rfl <;> decide
  obtain ⟨notUp, notCalling, notEarly, notInCall⟩ := out
  unfold Link.ended
  split
  · exact ⟨{
      sequenced := Link.sequenced_of_empty rfl
      fresh := nofun
      outstanding := fun hn => absurd rfl hn
      probes := fun hn => absurd rfl hn
      queue := fun _ => ⟨rfl, rfl⟩
      waiting := fun hn => absurd rfl hn
      ackTimer := iff_of_false (fun hn => hn rfl) fun hn => hn rfl
      silence := iff_of_false (fun hn => hn rfl) notUp
      openTimer := iff_of_false (fun hn => hn rfl) notCalling
      hello := iff_of_false (fun hn => hn rfl) notEarly
      own := fun hc => by rw [notInCall] at hc; cases hc }, Nat.zero_le _⟩
  · rename_i before
    have before' : ¬ (l.session = .aligning ∨ l.session = .up) := fun hb => before (.inr hb)
    have early : ¬ (l.session = .calling ∨ l.session = .aligning) := fun hb => before (hb.imp_right .inl)
    exact ⟨{ h.sound with
      fresh := fun hf => absurd (.inr (.inr (h.sound.fresh hf))) before
      outstanding := fun hn => absurd (h.sound.outstanding hn) before'
      probes := fun hn => absurd (h.sound.probes hn) before'
      queue := fun _ => h.sound.queue fun hu => before (.inr (.inr hu))
      silence := iff_of_false (mt h.sound.silence.1 before') notUp
      openTimer := iff_of_false (mt h.sound.openTimer.1 fun hc => before (.inl hc)) notCalling
      hello := iff_of_false (mt h.sound.hello.1 early) notEarly
      own := fun hc => by rw [notInCall] at hc; cases hc }, h.room⟩

/-- R105: 65,535 is followed by 1, and no session number is 0. -/
theorem nextSession_ne_zero (n : Half) : nextSession n ≠ 0 := by
  unfold nextSession
  split
  · decide
  · rename_i hn
    intro h0
    exact hn (by rw [show BitVec.allOnes 16 = 65535#16 from rfl]; bv_omega)

/-- R105, R106: LINK_OPEN starts a call in CLOSED or FAILED. -/
theorem Link.InOrder.call {l : Link} (h : l.InOrder) (hs : l.session = .closed ∨ l.session = .failed)
    (p : LinkParams) : (l.call p).InOrder := by
  have out : l.session ≠ .up ∧ ¬ (l.session = .aligning ∨ l.session = .up) := by
    rcases hs with hs | hs <;> simp [hs]
  obtain ⟨notUp, notProbing⟩ := out
  exact ⟨{ h.sound with
    fresh := fun hf => absurd (h.sound.fresh hf) notUp
    outstanding := fun hn => absurd (h.sound.outstanding hn) notProbing
    probes := fun hn => absurd (h.sound.probes hn) notProbing
    queue := fun _ => h.sound.queue notUp
    silence := iff_of_false (mt h.sound.silence.1 notProbing) nofun
    openTimer := iff_of_true nofun rfl
    hello := iff_of_true nofun (.inl rfl)
    own := fun _ => nextSession_ne_zero l.own }, h.room⟩

/-- R108: a call that the peer has seen enters ALIGNING. -/
theorem Link.InOrder.enterAligning {l : Link} (h : l.InOrder) (hs : l.session = .calling) :
    l.enterAligning.InOrder := by
  have notUp : l.session ≠ .up := by simp [hs]
  exact ⟨{ h.sound with
    fresh := fun hf => absurd (h.sound.fresh hf) notUp
    outstanding := fun hn => absurd rfl hn
    probes := fun _ => .inl rfl
    queue := fun _ => h.sound.queue notUp
    silence := iff_of_true nofun (.inl rfl)
    openTimer := iff_of_false (fun hn => hn rfl) nofun
    hello := iff_of_true (h.sound.hello.2 (.inl hs)) (.inr rfl)
    own := fun _ => h.sound.own (by rw [hs]; rfl) }, h.room⟩

/-- R110, R132: the accepted ECHO of an ALIGNING session takes it UP, with nothing queued. -/
theorem Link.InOrder.enterUp {l : Link} (h : l.InOrder) (hs : l.session = .aligning) (offset delay : Int) :
    (l.accept offset delay).enterUp.InOrder := by
  have empty := (h.sound.queue (by simp [hs])).1
  exact ⟨{ h.sound with
    sequenced := Link.sequenced_of_empty empty
    fresh := fun _ => rfl
    outstanding := fun hn => absurd rfl hn
    probes := fun _ => .inr rfl
    queue := fun hu => absurd rfl hu
    silence := iff_of_true (h.sound.silence.2 (.inl hs)) (.inr rfl)
    openTimer := iff_of_false (mt h.sound.openTimer.1 (by simp [hs])) nofun
    hello := iff_of_false (fun hn => hn rfl) (by rintro (hc | hc) <;> cases hc)
    own := fun _ => h.sound.own (by rw [hs]; rfl) }, h.room⟩

/-- R63: a timer that counts a tick runs on, and one that is stopped stays so. -/
theorem tickTimer_ne_none (t : Option Nat) : tickTimer t ≠ none ↔ t ≠ none := by cases t <;> simp [tickTimer]

theorem Link.InOrder.tick {l : Link} (h : l.InOrder) : l.tick.InOrder :=
  ⟨{ h.sound with
    ackTimer := (tickTimer_ne_none _).trans h.sound.ackTimer
    silence := (tickTimer_ne_none _).trans h.sound.silence
    openTimer := (tickTimer_ne_none _).trans h.sound.openTimer
    hello := (tickTimer_ne_none _).trans h.sound.hello }, h.room⟩

/-- R104: an intact frame restarts the silence timer where it runs. -/
theorem Link.InOrder.heard {l : Link} (h : l.InOrder) : l.heard.InOrder := by
  unfold Link.heard
  split
  · exact ⟨{ h.sound with silence := iff_of_true nofun (.inl ‹_›) }, h.room⟩
  · exact ⟨{ h.sound with silence := iff_of_true nofun (.inr ‹_›) }, h.room⟩
  · exact h
  · exact h
  · exact h

/-! #### What leaves the link alone

The frame lemma of each operation that does not belong to the Link Controller. -/

/-- A conditional operation leaves the link alone when its effect does. -/
theorem ite_link {c : Prop} [Decidable c] {s t u : State} (ht : t.link = s.link) (hu : u.link = s.link) :
    (if c then t else u).link = s.link := by
  split
  · exact ht
  · exact hu

theorem OnlyOfferFields.link {s t : State} (h : OnlyOfferFields s t) : t.link = s.link := by
  unfold OnlyOfferFields at h
  rw [h]

@[simp] theorem takeRaise_link (r : Raise) (s : State) : (takeRaise r s).link = s.link := by rw [takeRaise_eq]

@[simp] theorem takeRecord_link (ring : Fin 4) (r : HostRecord) (s : State) :
    (takeRecord ring r s).link = s.link := by rw [takeRecord_eq]

@[simp] theorem handCompletion_link (kind : Byte) (tag : Word) (st : Status) (w1 w2 w3 : Word) (s : State) :
    (handCompletion kind tag st w1 w2 w3 s).link = s.link := by rw [handCompletion_eq]

@[simp] theorem finishDeferred_link (k : DeferredKind) (st : Status) (w1 w2 w3 : Word) (s : State) :
    (finishDeferred k st w1 w2 w3 s).link = s.link := by rw [finishDeferred_eq]

@[simp] theorem settle_link (s : State) : (settle s).link = s.link := by rw [settle_eq]

@[simp] theorem finishImmediate_link (kind : Byte) (tag : Word) (st : Status) (w1 w2 w3 : Word) (s : State) :
    (finishImmediate kind tag st w1 w2 w3 s).link = s.link := by rw [finishImmediate_eq]

@[simp] theorem commandFetch_link (s : State) : (commandFetch s).link = s.link := by rw [commandFetch_eq]

@[simp] theorem takeCommand_link (s : State) : (takeCommand s).link = s.link := by rw [takeCommand_eq]

@[simp] theorem commandIndexWritten_link (s : State) : (commandIndexWritten s).link = s.link := by
  rw [commandIndexWritten_eq]

@[simp] theorem offerEvent_link (e : Event) (s : State) : (offerEvent e s).link = s.link := by rw [offerEvent_eq]

@[simp] theorem finishQuiesce_link (st : Status) (s : State) : (finishQuiesce st s).link = s.link := by
  unfold finishQuiesce
  split <;> simp

@[simp] theorem answerCommand_link (kind : Byte) (tag : Word) (a : Answer) (s : State) :
    (answerCommand kind tag a s).link = s.link := by
  cases a <;> simp [answerCommand]

/-- R140: the ABORTED completions of the deferred set leave the link alone. -/
@[simp] theorem abortDeferred_link (s : State) : (abortDeferred s).link = s.link := by
  have fold : ∀ (ds : List Deferred) (t : State), (ds.foldl abortOne t).link = t.link := by
    intro ds
    induction ds with
    | nil => exact fun _ => rfl
    | cons d ds ih => exact fun t => (ih _).trans (handCompletion_link _ _ _ _ _ _ t)
  exact fold s.deferred s

theorem quiesceDeadline_link (s : State) : (quiesceDeadline s).link = s.link := by
  unfold quiesceDeadline
  split
  · exact ite_link (by simp) rfl
  · rfl

theorem statsReadDone_link (s : State) : (statsReadDone s).link = s.link := by
  unfold statsReadDone
  split
  · exact ite_link (by simp) rfl
  · rfl

theorem faultRaise_link (index : Nat) (s : State) : (faultRaise index s).link = s.link := by
  unfold faultRaise
  split
  · rfl
  · exact takeRaise_link _ _

theorem completionWritten_link (s : State) : (completionWritten s).link = s.link := by
  unfold completionWritten
  split
  · rfl
  · split <;> rfl

theorem eventWritten_link (ring : Fin 4) (s : State) : (eventWritten ring s).link = s.link := by
  unfold eventWritten
  split
  · rfl
  · split <;> rfl

theorem indexWritten_link (field : IndexField) (s : State) : (indexWritten field s).link = s.link := by
  unfold indexWritten
  split
  · cases field <;> rfl
  · rfl

theorem bufferWritten_link (s : State) : (bufferWritten s).link = s.link := by
  unfold bufferWritten
  split
  · rfl
  · dsimp only
    split <;> rfl

theorem issuedWritten_link (index : Nat) (s : State) : (issuedWritten index s).link = s.link := by
  unfold issuedWritten
  split
  · rfl
  · exact ite_link rfl rfl

/-- R146, R177: writes into host memory that complete leave the link alone. -/
theorem recordWriteDone_link (target : WriteTarget) (s : State) : (recordWriteDone target s).link = s.link := by
  cases target with
  | completionRing => exact ite_link (completionWritten_link s) rfl
  | eventRing ring => exact ite_link (eventWritten_link ring s) rfl
  | index field => exact ite_link (indexWritten_link field s) rfl
  | statsBuffer => exact ite_link (bufferWritten_link s) rfl
  | issued index => exact issuedWritten_link index s

theorem submit_link (word : Word) (s : State) : (submit word s).link = s.link := by
  unfold submit
  split
  · exact ite_link (commandFetch_link _) rfl
  · rfl

theorem release_link (word : Word) (s : State) : (release word s).link = s.link := by
  unfold release
  split
  · split
    · exact commandFetch_link _
    · rfl
  · rfl

@[simp] theorem offerEdge_link (n : Fin 16) (l : InputLine) (e : Event) (level : Level) (window : Option Nat)
    (s : State) : (offerEdge n l e level window s).link = s.link := by
  unfold offerEdge
  split
  · exact (setInput_link _ _ _).trans (offerEvent_link e s)
  · rfl
  · rfl

@[simp] theorem acceptChange_link (n : Fin 16) (l : InputLine) (stamp : Nat) (s : State) :
    (acceptChange n l stamp s).link = s.link := ite_link (ite_link rfl (offerEdge_link _ _ _ _ _ s)) rfl

theorem rawChange_link (n : Fin 16) (level : Level) (s : State) : (rawChange n level s).link = s.link := by
  refine ite_link rfl (ite_link ?_ rfl)
  split
  · rfl
  · exact ite_link (acceptChange_link _ _ _ s) rfl

theorem filterAccept_link (n : Fin 16) (s : State) : (filterAccept n s).link = s.link := by
  unfold filterAccept
  dsimp only
  split
  · rfl
  · exact ite_link (acceptChange_link _ _ _ s) rfl

theorem spacingEnd_link (n : Fin 16) (s : State) : (spacingEnd n s).link = s.link := by
  unfold spacingEnd
  dsimp only
  split
  · rfl
  · refine ite_link ?_ rfl
    split
    · rfl
    · exact offerEdge_link _ _ _ _ _ s

theorem announceLine_link (n : Fin 16) (s : State) : (announceLine n s).link = s.link := by
  refine ite_link rfl ?_
  split
  · exact (offerState_only n s).link
  · rfl
  · rfl

/-- R8, R81: the offers of an announce leave the link alone. -/
@[simp] theorem announceNext_link (k : Nat) (s : State) : (announceNext k s).link = s.link := by
  induction k generalizing s with
  | zero => rfl
  | succ k ih =>
    simp only [announceNext]
    split
    · rfl
    · rw [ih, announceLine_link]

theorem holdRelease_link (s : State) : (holdRelease s).link = s.link := by
  refine ite_link ?_ rfl
  split
  · rfl
  · exact ite_link rfl rfl

theorem handoverTake_link (s : State) : (handoverTake s).link = s.link := by
  refine ite_link ?_ rfl
  split <;> rfl

theorem applicationRequest_link (line : Fin 16) (s : State) : (applicationRequest line s).link = s.link := by
  unfold applicationRequest
  split
  · rfl
  · exact ite_link (settle_link _) rfl

theorem eventRecordTake_link (poster : Poster) (s : State) : (eventRecordTake poster s).link = s.link := by
  refine ite_link ?_ rfl
  cases poster with
  | release ring =>
    dsimp only
    split
    · rfl
    · exact ite_link (by simp) rfl
  | faultUnit =>
    dsimp only
    split
    · exact takeRecord_link _ _ _
    · rfl
  | linkController =>
    dsimp only
    split
    · exact takeRecord_link _ _ _
    · rfl

theorem startPart_link (s : State) : (startPart s).link = s.link := ite_link rfl (ite_link (ite_link rfl rfl) rfl)

theorem setupReadDone_link (b : SetupBlock) (s : State) : (setupReadDone b s).link = s.link := by
  unfold setupReadDone
  split
  · exact ite_link rfl rfl
  · rfl

theorem statusBlockInitDone_link (s : State) : (statusBlockInitDone s).link = s.link := by
  unfold statusBlockInitDone
  split <;> simp

theorem stoppingEnd_link (s : State) : (stoppingEnd s).link = s.link := ite_link (by simp) rfl

theorem decideLocal_link (c : RouteConfig) (e : Event) (s : State) : (decideLocal c e s).link = s.link := by
  refine ite_link rfl ?_
  rw [decideOutcome_eq]

/-! #### The steps of the link -/

/-- The link in order before the step is in order after it. -/
def KeepsLink (s t : State) : Prop := s.link.InOrder → t.link.InOrder

theorem KeepsLink.refl (s : State) : KeepsLink s s := id

theorem KeepsLink.trans {s t u : State} (h : KeepsLink s t) (k : KeepsLink t u) : KeepsLink s u := k ∘ h

theorem KeepsLink.of_link {s t : State} (h : t.link = s.link) : KeepsLink s t := fun hs => h ▸ hs

/-- A step that keeps the link in order, and then something that leaves it alone. -/
theorem KeepsLink.then {s t u : State} (h : KeepsLink s t) (k : u.link = t.link) : KeepsLink s u := h.trans (.of_link k)

/-- A step that keeps the link in order, after something that leaves it alone. -/
theorem KeepsLink.after {s t u : State} (k : KeepsLink t u) (h : t.link = s.link) : KeepsLink s u :=
  (KeepsLink.of_link h).trans k

theorem KeepsLink.ite {s t u : State} {c : Prop} [Decidable c] (ht : c → KeepsLink s t) (hu : ¬ c → KeepsLink s u) :
    KeepsLink s (if c then t else u) := by
  split
  · exact ht ‹_›
  · exact hu ‹_›

/-- R188: counters are no part of the order. -/
theorem countLink_keepsLink (f : LinkCounters → LinkCounters) (s : State) : KeepsLink s (countLink f s) := fun h =>
  ⟨{ h.sound with }, h.room⟩

theorem enterFailed_keepsLink (r : Reason) (s : State) : KeepsLink s (enterFailed r s) := fun h => by
  rw [enterFailed_sessionFailed]
  exact h.ended (.inr rfl) r false

theorem enterClosed_keepsLink (r : Reason) (sendClose : Bool) (s : State) :
    KeepsLink s (enterClosed r sendClose s) := fun h => by
  rw [enterClosed_transition]
  exact h.ended (.inl rfl) r sendClose

/-- R110: entry to UP leaves the link at `Link.enterUp`; the notice, the completion and the announce leave it there. -/
theorem enterUp_link (pause : Option Nat) (s : State) : (enterUp pause s).link = s.link.enterUp := by
  simp only [enterUp, announce, announceOn, announceNext_link, finishLinkOpen, finishDeferred_link]
  rw [postLinkNotice_eq, onLink_link]

theorem arrived_keepsLink (s : State) : KeepsLink s (arrived s) := fun h =>
  Link.InOrder.heard (countLink_keepsLink (fun c => { c with framesReceived := bump c.framesReceived }) s h)

theorem receive_keepsLink {f : State → State} (hf : ∀ s, KeepsLink s (f s)) (s : State) : KeepsLink s (receive f s) :=
  .ite (fun _ => .refl s) fun _ => ((arrived_keepsLink s).trans (hf _)).then (settle_link _)

/-- R101: a frame with a sender session of 0 is counted, and any other is taken. -/
theorem intact_keepsLink {sender : Half} {f : State → State} (hf : ∀ s, KeepsLink s (f s)) (s : State) :
    KeepsLink s (if sender = 0 then countMalformed s else f s) :=
  .ite (fun _ => countLink_keepsLink _ s) fun _ => hf s

theorem takeHello_keepsLink (sender seen : Half) (s : State) : KeepsLink s (takeHello sender seen s) := by
  unfold takeHello
  split
  · exact countLink_keepsLink _ s
  · exact countLink_keepsLink _ s
  · rename_i calling
    intro h
    have recorded : ({ s.link with recorded := sender } : Link).InOrder := ⟨{ h.sound with }, h.room⟩
    simp only [onLink_link, Link.helloInCall]
    split
    · exact recorded.enterAligning calling
    · exact recorded
  · exact .ite (fun _ => .refl s) fun _ => enterFailed_keepsLink _ s
  · exact .ite (fun _ => .refl s) fun _ => enterFailed_keepsLink _ s

theorem takeClose_keepsLink (sender : Half) (s : State) : KeepsLink s (takeClose sender s) :=
  .ite (fun _ => enterClosed_keepsLink _ _ s) fun _ => countLink_keepsLink _ s

theorem takeExpected_keepsLink (f : RxEventFields) (kind : EventKind) (s : State) :
    KeepsLink s (takeExpected f kind s) := by
  have passed : KeepsLink s (onLink Link.pass s) := fun h => ⟨{ h.sound with }, h.room⟩
  unfold takeExpected
  split
  · exact (passed.trans (countLink_keepsLink _ _)).then (offerEvent_link _ _)
  · exact passed.trans (countLink_keepsLink _ _)
  · exact countLink_keepsLink _ s

theorem takeSequence_keepsLink (f : RxEventFields) (kind : EventKind) (s : State) :
    KeepsLink s (takeSequence f kind s) := by
  refine .ite (fun _ => takeExpected_keepsLink f kind s) fun _ => .ite (fun _ => ?_) fun _ => countLink_keepsLink _ s
  have acknowledged : KeepsLink s (onLink Link.makeAck s) := fun h => ⟨{ h.sound with }, h.room⟩
  exact acknowledged.trans (countLink_keepsLink _ _)

theorem takeEvent_keepsLink (f : RxEventFields) (s : State) : KeepsLink s (takeEvent f s) := by
  unfold takeEvent
  split
  · exact .ite (fun _ => countLink_keepsLink _ s) fun _ => countLink_keepsLink _ s
  · exact .ite (fun _ => takeSequence_keepsLink _ _ s) fun _ => countLink_keepsLink _ s

theorem takeAck_keepsLink (next : Byte) (s : State) : KeepsLink s (takeAck next s) :=
  .ite (fun up => .ite (fun _ => .refl s) fun _ => .ite (fun _ => fun h => h.acknowledge up _)
    fun _ => countLink_keepsLink _ s) fun _ => countLink_keepsLink _ s

theorem takeProbe_keepsLink (number : Byte) (t1 : Quad) (s : State) : KeepsLink s (takeProbe number t1 s) :=
  .ite (fun _ => fun h => ⟨{ h.sound with }, h.room⟩) fun _ => countLink_keepsLink _ s

theorem Session.probes_iff (x : Session) : x.probes = true ↔ x = .aligning ∨ x = .up := by cases x <;> decide

/-- R110, R132: an accepted ECHO leaves the link FRESH and UP, whether the session was ALIGNING or UP before it. -/
theorem judgeEcho_keepsLink (t1 : Nat) (t2 t3 : Quad) (pause : Option Nat) {s : State}
    (probing : s.link.session = .aligning ∨ s.link.session = .up) : KeepsLink s (judgeEcho t1 t2 t3 pause s) := by
  refine .ite (fun _ => .ite (fun aligning => fun h => ?_) fun notAligning => fun h => ?_) fun _ => fun h => ?_
  · rw [enterUp_link]
    exact h.enterUp aligning _ _
  · exact ⟨{ h.sound with
      fresh := fun _ => probing.resolve_left notAligning
      outstanding := fun hn => absurd rfl hn }, h.room⟩
  · exact ⟨{ h.sound with outstanding := fun hn => absurd rfl hn }, h.room⟩

theorem takeEcho_keepsLink (number : Byte) (t1 t2 t3 : Quad) (pause : Option Nat) (s : State) :
    KeepsLink s (takeEcho number t1 t2 t3 pause s) := by
  refine .ite (fun probes => ?_) fun _ => countLink_keepsLink _ s
  split
  · exact judgeEcho_keepsLink _ _ _ _ ((Session.probes_iff _).1 probes)
  · exact countLink_keepsLink _ s

theorem rxEcho_keepsLink (number : Byte) (t1 t2 t3 : Quad) (part : EchoPart) (s : State) :
    KeepsLink s (rxEcho number t1 t2 t3 part s) := by
  cases part with
  | frame pause => exact receive_keepsLink (takeEcho_keepsLink number t1 t2 t3 pause) s
  | announce pause => exact .ite (fun _ => .of_link (announceNext_link _ s)) fun _ => .refl s

theorem frameTransmit_keepsLink (s : State) : KeepsLink s (frameTransmit s) :=
  .ite (fun _ => fun h => h.transmit _) fun _ => .refl s

theorem frameSent_keepsLink (s : State) : KeepsLink s (frameSent s) := by
  unfold frameSent
  split
  · exact .refl s
  · exact fun h => ⟨{ h.sound with }, h.room⟩

theorem helloTimer_keepsLink (s : State) : KeepsLink s (helloTimer s) :=
  .ite (fun due => fun h => h.makeHello due.1) fun _ => .refl s

theorem keepalive_keepsLink (s : State) : KeepsLink s (keepalive s) :=
  .ite (fun _ => fun h => ⟨{ h.sound with }, h.room⟩) fun _ => .refl s

theorem probeTimer_keepsLink (s : State) : KeepsLink s (probeTimer s) :=
  .ite (fun due => fun h =>
    Link.InOrder.makeProbe (l := { s.link with probeTimer := some 0 }) ⟨{ h.sound with }, h.room⟩ (.inr due.1))
    fun _ => .refl s

/-- R107, R109, R112, R125: a timer that fails the session. -/
theorem sessionFails_keepsLink (r : Reason) (s : State) : KeepsLink s (settle (enterFailed r s)) :=
  (enterFailed_keepsLink r s).then (settle_link _)

theorem openTimeout_keepsLink (s : State) : KeepsLink s (openTimeout s) :=
  .ite (fun _ => sessionFails_keepsLink _ s) fun _ => .refl s

theorem silenceTimeout_keepsLink (s : State) : KeepsLink s (silenceTimeout s) :=
  .ite (fun _ => sessionFails_keepsLink _ s) fun _ => .refl s

theorem probeAttemptEnd_keepsLink (s : State) : KeepsLink s (probeAttemptEnd s) :=
  .ite (fun due => .ite (fun _ => fun h =>
    Link.InOrder.makeProbe (l := { s.link with attempts := s.link.attempts + 1, attemptTimer := some 0 })
      ⟨{ h.sound with }, h.room⟩ (.inl due.1)) fun _ => sessionFails_keepsLink _ s) fun _ => .refl s

theorem ackTimeout_keepsLink (s : State) : KeepsLink s (ackTimeout s) := by
  refine .ite (fun _ => ?_) fun _ => .refl s
  split
  · exact .refl s
  · rename_i w rest hw
    refine .ite (fun _ => fun h => ?_) fun _ => sessionFails_keepsLink _ s
    have running : s.link.ackTimer ≠ none := h.sound.ackTimer.2 (hw ▸ List.cons_ne_nil w rest)
    exact h.marked (timer := some 0) (resendWindow_seqs _) (iff_of_true nofun running) s.link.lane

theorem stalenessTimeout_keepsLink (s : State) : KeepsLink s (stalenessTimeout s) := by
  have stale : KeepsLink s (onLink (fun l => { l with staleTimer := none, fresh := false }) s) := fun h =>
    ⟨{ h.sound with fresh := nofun }, h.room⟩
  exact .ite (fun _ => .ite (fun _ => stale) fun _ => stale) fun _ => .refl s

theorem tick_keepsLink (s : State) : KeepsLink s (tick s) := .ite (fun _ => .refl s) fun _ => Link.InOrder.tick

/-! #### The Router (R22, R23) -/

/-- R23: a frame is enqueued in UP alone. -/
theorem forward_keepsLink (e : Event) (s : State) : KeepsLink s (forward e s) := by
  by_cases up : s.link.session = .up
  · by_cases hroom : s.link.queueDepth < Config.transmitCapacity
    · rw [forward_queued up hroom]
      exact fun h => h.enqueue up _
    · rw [forward_full up (Nat.not_lt.1 hroom)]
      exact .of_link rfl
  · rw [forward_notUp up]
    exact .of_link rfl

theorem forwardPart_keepsLink (c : RouteConfig) (e : Event) (s : State) : KeepsLink s (forwardPart c e s) :=
  .ite (fun _ => forward_keepsLink e s) fun _ => .refl s

theorem Deciding.reach_keepsLink (d : Deciding) (pause : Option DecisionStage) {run : State → State} {s : State}
    (h : KeepsLink s (run s)) : KeepsLink s (d.reach pause run s) :=
  .ite (fun _ => .of_link rfl) fun _ => h

theorem decideForward_keepsLink (pause : Option DecisionStage) (d : Deciding) (s : State) :
    KeepsLink s (decideForward pause d s) :=
  (forwardPart_keepsLink _ _ s).trans (Deciding.reach_keepsLink _ _ (.of_link (decideLocal_link _ _ _)))

theorem decideReading_keepsLink (pause : Option DecisionStage) (d : Deciding) (s : State) :
    KeepsLink s (decideReading pause d s) := by
  refine .ite (fun _ => .of_link rfl) fun _ => .ite (fun _ => ?_) fun _ => .of_link rfl
  split
  · exact .of_link rfl
  · exact (Deciding.reach_keepsLink _ _ (decideForward_keepsLink _ _ _)).after (countRoute_link _ _ s)

theorem resumeDecision_keepsLink (pause : Option DecisionStage) (d : Deciding) (s : State) :
    KeepsLink s (resumeDecision pause d s) := by
  unfold resumeDecision
  split
  · exact decideReading_keepsLink _ _ s
  · exact decideForward_keepsLink _ _ s
  · exact .of_link (decideLocal_link _ _ s)

theorem decideEvent_keepsLink (pause : Option DecisionStage) (e : Event) (s : State) :
    KeepsLink s (decideEvent pause e s) := by
  unfold decideEvent
  split
  · exact .of_link rfl
  · exact Deciding.reach_keepsLink _ _ (decideReading_keepsLink _ _ s)

theorem routerTake_keepsLink (pause : Option DecisionStage) (s : State) : KeepsLink s (routerTake pause s) := by
  refine .ite (fun _ => ?_) fun _ => .refl s
  split
  · exact KeepsLink.then (resumeDecision_keepsLink pause _ { s with deciding := none }) (settle_link _)
  · exact .refl s
  · rename_i e rest _ _
    exact KeepsLink.then (decideEvent_keepsLink pause e { s with intake := rest }) (settle_link _)

/-! #### Part states (9.1) -/

theorem offersLate_keepsLink (late : List LateOffer) (s : State) : KeepsLink s (offersLate late s) := by
  have one : ∀ (x : LateOffer) (t : State), KeepsLink t (offerLate x t) := by
    intro x t
    cases x with
    | edge line => exact .of_link (filterAccept_link line t)
    | unfiltered line level => exact .of_link (rawChange_link line level t)
    | catchUp line => exact .of_link (spacingEnd_link line t)
    | announce => exact .of_link (announceNext_link 1 t)
    | frame f => exact receive_keepsLink (takeEvent_keepsLink f) t
  have fold : ∀ t, KeepsLink t (late.foldl (fun t x => offerLate x t) t) := by
    induction late with
    | nil => exact .refl
    | cons x xs ih => exact fun t => (one x t).trans (ih _)
  exact fold { s with intakeOpen := false }

theorem closeAtStop_keepsLink (s : State) : KeepsLink s (closeAtStop s) :=
  .ite (fun _ => .refl s) fun _ => enterClosed_keepsLink _ _ s

/-- R116: the session closes as at a STOP, but for its last reason. -/
theorem closeAtHalt_keepsLink (s : State) : KeepsLink s (closeAtHalt s) := by
  refine .ite (fun _ => .refl s) fun _ => fun h => ?_
  have closed : ({ s.link.leave with session := .closed, closeWait := some s.link.own } : Link)
      = s.link.ended .closed s.link.leave.reason true := by
    rw [← Link.close_ended]
    unfold Link.leave
    split <;> rfl
  simp only [onLink_link, closed]
  exact h.ended (.inl rfl) _ _

theorem enterStopping_keepsLink (late : List LateOffer) (s : State) : KeepsLink s (enterStopping late s) := by
  have closed : KeepsLink s (closeAtStop (abortDeferred (offersLate late s))) :=
    ((offersLate_keepsLink late s).then (abortDeferred_link _)).trans (closeAtStop_keepsLink _)
  exact closed.then (by simp [enterStopping, discardEvents])

theorem enterHalted_keepsLink (late : List LateOffer) (s : State) : KeepsLink s (enterHalted late s) := by
  have closed : KeepsLink s (closeAtHalt (offersLate late s)) :=
    (offersLate_keepsLink late s).trans (closeAtHalt_keepsLink _)
  exact closed.then (by simp [enterHalted, discardEvents])

/-- R103, R142: after a device reset the link is CLOSED, with nothing queued, outstanding or timed. -/
theorem Link.InOrder.reset : Link.reset.InOrder := ⟨resetStateIsSound.link, Nat.zero_le _⟩

theorem deviceReset_keepsLink (s : State) : KeepsLink s (deviceReset s) := fun _ => Link.InOrder.reset

/-! #### Commands (chapter 10)

Three commands touch the link: LINK_OPEN, LINK_CLOSE and TIME_SET; and a STOP inside any of them closes it. -/

/-- An execution keeps the link in order, whatever falls inside it. -/
def Execution.KeepsLink (x : Execution) : Prop := ∀ (falls : Falls) (s : State), Machine.KeepsLink s (x falls s).1

theorem whole_keepsLink {f : State → State × Answer} (hf : ∀ s, KeepsLink s (f s).1) :
    Execution.KeepsLink (whole f) := by
  rintro (_ | ⟨_ | n, late⟩ | ⟨_ | n⟩) s
  · exact hf s
  · exact (enterStopping_keepsLink late s).trans (hf _)
  · exact (hf s).trans (enterStopping_keepsLink late _)
  · exact .refl s
  · exact hf s

/-- A command of another unit: what it does, checked and done, leaves the link alone. -/
theorem whole_keepsLink_of_link {f : State → State × Answer} (hf : ∀ s, (f s).1.link = s.link) :
    Execution.KeepsLink (whole f) := whole_keepsLink fun s => .of_link (hf s)

theorem rejected_keepsLink (status : Status) : Execution.KeepsLink (whole (rejected status)) :=
  whole_keepsLink_of_link fun _ => rfl

theorem makeOffers_keepsLink (w : OfferSet) : Execution.KeepsLink (makeOffers w) := by
  have advanced : ∀ k s, KeepsLink s (w.advance k s).1 := fun k s => .of_link (OfferSet.advance_only k w s).link
  rintro (_ | ⟨requests, late⟩ | requests) s
  · exact advanced _ s
  · exact (advanced requests s).trans (enterStopping_keepsLink late _)
  · exact advanced requests s

theorem refreshExecution_keepsLink (tag lines : Word) : (refreshExecution tag lines).KeepsLink := by
  intro falls s
  unfold refreshExecution
  split
  · exact makeOffers_keepsLink _ falls s
  · exact rejected_keepsLink _ falls s

theorem routeSetExecution_keepsLink (tag : Word) (f : RouteSetFields) : (routeSetExecution tag f).KeepsLink := by
  intro falls s
  unfold routeSetExecution
  split
  · split
    · exact (makeOffers_keepsLink _ falls _).after (setRoute_link _ _ s)
    · exact whole_keepsLink_of_link (fun _ => rfl) falls s
  · exact rejected_keepsLink _ falls s

theorem routeClearExecution_keepsLink (f : RouteClearFields) : (routeClearExecution f).KeepsLink := by
  refine whole_keepsLink_of_link fun s => ?_
  split
  · dsimp only
    split <;> rfl
  · rfl

theorem changeRouteState_link (target : RouteState) (source : Half) (s : State) :
    (changeRouteState target source s).1.link = s.link := by
  unfold changeRouteState
  split
  · dsimp only
    split <;> rfl
  · rfl

theorem lineInExecution_keepsLink (f : LineInFields) : (lineInExecution f).KeepsLink := by
  refine whole_keepsLink_of_link fun s => ?_
  split <;> rfl

theorem lineOutExecution_keepsLink (f : LineOutFields) : (lineOutExecution f).KeepsLink := by
  refine whole_keepsLink_of_link fun s => ?_
  split <;> rfl

theorem outputSetExecution_keepsLink (f : OutputSetFields) : (outputSetExecution f).KeepsLink := by
  refine whole_keepsLink_of_link fun s => ?_
  split
  · dsimp only
    split
    · split <;> rfl
    · rfl
  · rfl

theorem scheduleExecution_keepsLink (f : ScheduleFields) : (scheduleExecution f).KeepsLink := by
  refine whole_keepsLink_of_link fun s => ?_
  split
  · rfl
  · split
    · exact offerEvent_link _ s
    · rfl
    · rfl

/-- R69: an accepted TIME_SET makes the alignment STALE and abandons the outstanding probe. -/
theorem timeSetExecution_keepsLink (time : Quad) : (timeSetExecution time).KeepsLink := by
  refine whole_keepsLink fun s => ?_
  split
  · split
    · intro h
      simp only [stepTime_eq]
      exact ⟨{ h.sound with fresh := nofun, outstanding := fun hn => absurd rfl hn }, h.room⟩
    · exact .refl s
  · exact .refl s

/-- R105: a call starts in CLOSED and FAILED alone. -/
theorem linkOpenExecution_keepsLink (tag : Word) (f : LinkOpenFields) : (linkOpenExecution tag f).KeepsLink := by
  refine whole_keepsLink fun s => ?_
  split
  · split
    · exact fun h => h.call (.inl ‹_›) _
    · exact fun h => h.call (.inr ‹_›) _
    · exact .refl s
    · exact .refl s
    · exact .refl s
  · exact .refl s

theorem linkCloseExecution_keepsLink : linkCloseExecution.KeepsLink :=
  whole_keepsLink fun s => .ite (fun _ => .refl s) fun _ => enterClosed_keepsLink _ _ s

theorem quiesceExecution_keepsLink (tag deadline : Word) : (quiesceExecution tag deadline).KeepsLink := by
  refine whole_keepsLink_of_link fun s => ?_
  split
  · rfl
  · split
    · rfl
    · exact settle_link _

theorem statsReadExecution_keepsLink (tag : Word) (f : StatsReadFields) : (statsReadExecution tag f).KeepsLink := by
  refine whole_keepsLink_of_link fun s => ?_
  split
  · split <;> rfl
  · rfl

theorem faultsExecution_keepsLink (f : FaultsFields) : (faultsExecution f).KeepsLink := by
  refine whole_keepsLink_of_link fun s => ?_
  split <;> rfl

theorem fenceExecution_keepsLink (tag : Word) : (fenceExecution tag).KeepsLink := by
  refine whole_keepsLink_of_link fun s => ?_
  split
  · rfl
  · exact settle_link _

/-- Every command keeps the link in order, whatever falls inside its execution. -/
theorem executionOf_keepsLink (tag : Word) (c : Command) : (executionOf tag c).KeepsLink := by
  cases c with
  | unknown kind => exact rejected_keepsLink _
  | routeSet f => exact routeSetExecution_keepsLink tag f
  | routeClear f => exact routeClearExecution_keepsLink f
  | routeSuspend source => exact whole_keepsLink_of_link (changeRouteState_link _ source)
  | routeResume source => exact whole_keepsLink_of_link (changeRouteState_link _ source)
  | lineInConfig f => exact lineInExecution_keepsLink f
  | lineOutConfig f => exact lineOutExecution_keepsLink f
  | outputSet f => exact outputSetExecution_keepsLink f
  | schedule f => exact scheduleExecution_keepsLink f
  | cancel eventTag => exact whole_keepsLink_of_link fun _ => rfl
  | refresh lines => exact refreshExecution_keepsLink tag lines
  | timeRead => exact whole_keepsLink_of_link fun _ => rfl
  | timeSet time => exact timeSetExecution_keepsLink time
  | linkOpen f => exact linkOpenExecution_keepsLink tag f
  | linkClose => exact linkCloseExecution_keepsLink
  | quiesce deadline => exact quiesceExecution_keepsLink tag deadline
  | openIntake => exact whole_keepsLink_of_link fun _ => finishQuiesce_link _ _
  | statsRead f => exact statsReadExecution_keepsLink tag f
  | faults f => exact faultsExecution_keepsLink f
  | fence => exact fenceExecution_keepsLink tag

theorem abortLeftovers_keepsLink (s : State) : KeepsLink s (abortLeftovers s) :=
  .ite (fun _ => (closeAtStop_keepsLink _).after (abortDeferred_link s)) fun _ => .refl s

theorem runCommand_keepsLink (falls : Falls) (kind : Byte) (tag : Word) {x : Execution} (hx : x.KeepsLink)
    (s : State) : KeepsLink s (runCommand falls kind tag x s) := by
  refine .ite (fun _ => ?_) fun _ => .refl s
  have executed : KeepsLink s (x falls (takeCommand s)).1 := (hx falls (takeCommand s)).after (takeCommand_link s)
  exact ((executed.then (answerCommand_link _ _ _ _)).trans (abortLeftovers_keepsLink _)).then (commandFetch_link _)

theorem goOnOffering_keepsLink (pause : Option Nat) (w : OfferSet) (s : State) :
    KeepsLink s (goOnOffering pause w s) := by
  refine KeepsLink.then ?_ ((commandFetch_link _).trans (answerCommand_link _ _ _ _))
  split
  · exact makeOffers_keepsLink w _ { s with executing := none }
  · exact .of_link rfl
  · exact .refl s
  · exact .refl s
  · exact .refl s

theorem runOffering_keepsLink (pause : Option Nat) (tag : Word) (c : Command) {x : Execution} (hx : x.KeepsLink)
    (s : State) : KeepsLink s (runOffering pause tag c x s) := by
  unfold runOffering
  split
  · exact runCommand_keepsLink _ _ tag hx s
  · exact .ite (fun _ => goOnOffering_keepsLink pause _ s) fun _ => .refl s

theorem exec_takeUpTo_keepsLink (pause : Option Nat) (tag : Word) (c : Command) (s : State) :
    ∃ t, exec (takeUpTo pause tag c) s = .next t ∧ KeepsLink s t := by
  obtain ⟨t, ht, hcases⟩ := exec_takeUpTo pause tag c s
  refine ⟨t, ht, ?_⟩
  rcases hcases with rfl | ⟨kind, rfl⟩ | ⟨p, rfl⟩
  · exact .refl t
  · exact runCommand_keepsLink _ _ tag (executionOf_keepsLink tag c) s
  · exact runOffering_keepsLink _ tag c (executionOf_keepsLink tag c) s

theorem stopPart_keepsLink (during : Option Overtaken) (late : List LateOffer) (s : State) :
    KeepsLink s (stopPart during late s) := by
  refine .ite (fun _ => ?_) fun _ => .refl s
  cases during with
  | none => exact enterStopping_keepsLink late s
  | some o =>
    exact .ite (fun _ => runCommand_keepsLink _ _ _ (executionOf_keepsLink _ _) s)
      fun _ => enterStopping_keepsLink late s

theorem executedSoFar_keepsLink (o : Overtaken) (s : State) : KeepsLink s (executedSoFar o s) := by
  have executed : KeepsLink s (executionOf o.tag o.command (.others o.requests) (takeCommand s)).1 :=
    (executionOf_keepsLink _ _ _ _).after (takeCommand_link s)
  unfold executedSoFar
  dsimp only
  split <;> exact executed

theorem haltPart_keepsLink (during : Option Overtaken) (late : List LateOffer) (indexed : Bool) (s : State) :
    KeepsLink s (haltPart during late indexed s) := by
  cases during with
  | none => exact enterHalted_keepsLink late s
  | some o =>
    refine .ite (fun _ => KeepsLink.trans (.ite (fun _ => ?_) fun _ => ?_) (enterHalted_keepsLink late _))
      fun _ => enterHalted_keepsLink late s
    · exact (executedSoFar_keepsLink o s).then (commandIndexWritten_link _)
    · exact executedSoFar_keepsLink o s

theorem busMasterError_keepsLink (during : Option Overtaken) (late : List LateOffer) (indexed : Bool) (s : State) :
    KeepsLink s (busMasterError during late indexed s) := by
  unfold busMasterError
  split
  · exact .of_link rfl
  · exact haltPart_keepsLink during late indexed s
  · exact haltPart_keepsLink during late indexed s
  · exact .refl s
  · exact .refl s

/-! #### The register window and STATS_READ -/

theorem control_keepsLink (word : Word) (s : State) : KeepsLink s (control word s) :=
  .ite (fun _ => deviceReset_keepsLink s) fun _ => .ite (fun _ => .of_link (startPart_link s)) fun _ =>
    .ite (fun _ => stopPart_keepsLink none [] s) fun _ => .refl s

theorem registerWrite_keepsLink (offset count : Nat) (word : Word) (s : State) :
    KeepsLink s (registerWrite offset count word s) := by
  refine .ite (fun _ => .refl s) fun _ => ?_
  split
  · exact control_keepsLink word s
  · exact .of_link rfl
  · exact .of_link rfl
  · exact .of_link (submit_link word s)
  · exact .of_link (release_link word s)
  · exact .of_link (ite_link rfl rfl)
  · exact .of_link (ite_link rfl rfl)
  · exact .refl s

/-- R188: the clear flag empties counters alone. -/
theorem clearIn_keepsLink (item : StatsItem) (s : State) : KeepsLink s (item.clearIn s) := by
  cases item with
  | linkCounter k => exact countLink_keepsLink _ s
  | globalCounter k =>
    simp only [StatsItem.clearIn, clearGlobal]
    split <;> exact .of_link rfl
  | _ => exact .of_link rfl

theorem statsItemRead_keepsLink (board : BitVec 16) (s : State) : KeepsLink s (statsItemRead board s) := by
  unfold statsItemRead
  split
  · split
    · exact .refl s
    · exact .ite (fun _ => (clearIn_keepsLink _ _).after rfl) fun _ => .of_link rfl
  · exact .refl s

/-! #### Every step -/

/-- R106, R117, R120, R124, R129: every meaning keeps the link in order. -/
theorem exec_keepsLink (c : Instr) (s : State) : ∃ t, exec c s = .next t ∧ KeepsLink s t := by
  cases c with
  | start => exact ⟨_, rfl, .of_link (startPart_link s)⟩
  | stop during late => exact ⟨_, rfl, stopPart_keepsLink during late s⟩
  | reset => exact ⟨_, rfl, deviceReset_keepsLink s⟩
  | resetNAssert => exact ⟨_, rfl, deviceReset_keepsLink s⟩
  | resetNRelease => exact ⟨_, rfl, .of_link rfl⟩
  | functionReset => exact ⟨_, rfl, deviceReset_keepsLink s⟩
  | setupReadDone block => exact ⟨_, rfl, .of_link (setupReadDone_link block s)⟩
  | statusBlockInitDone => exact ⟨_, rfl, .of_link (statusBlockInitDone_link s)⟩
  | stoppingEnd => exact ⟨_, rfl, .of_link (stoppingEnd_link s)⟩
  | busMasterError during late indexed => exact ⟨_, rfl, busMasterError_keepsLink during late indexed s⟩
  | submit word => exact ⟨_, rfl, .of_link (submit_link word s)⟩
  | release word => exact ⟨_, rfl, .of_link (release_link word s)⟩
  | intCause word => exact ⟨_, rfl, .of_link (ite_link rfl rfl)⟩
  | intEnable word => exact ⟨_, rfl, .of_link (ite_link rfl rfl)⟩
  | registerWrite offset count word => exact ⟨_, rfl, registerWrite_keepsLink offset count word s⟩
  | unknownCommand tag kind => exact exec_takeUpTo_keepsLink none tag (.unknown kind) s
  | routeSet tag f pause => exact exec_takeUpTo_keepsLink pause tag (.routeSet f) s
  | routeClear tag f => exact exec_takeUpTo_keepsLink none tag (.routeClear f) s
  | routeSuspend tag source => exact exec_takeUpTo_keepsLink none tag (.routeSuspend source) s
  | routeResume tag source => exact exec_takeUpTo_keepsLink none tag (.routeResume source) s
  | lineInConfig tag f => exact exec_takeUpTo_keepsLink none tag (.lineInConfig f) s
  | lineOutConfig tag f => exact exec_takeUpTo_keepsLink none tag (.lineOutConfig f) s
  | outputSet tag f => exact exec_takeUpTo_keepsLink none tag (.outputSet f) s
  | schedule tag f => exact exec_takeUpTo_keepsLink none tag (.schedule f) s
  | cancel tag eventTag => exact exec_takeUpTo_keepsLink none tag (.cancel eventTag) s
  | refresh tag lines pause => exact exec_takeUpTo_keepsLink pause tag (.refresh lines) s
  | timeRead tag => exact exec_takeUpTo_keepsLink none tag .timeRead s
  | timeSet tag time => exact exec_takeUpTo_keepsLink none tag (.timeSet time) s
  | linkOpen tag f => exact exec_takeUpTo_keepsLink none tag (.linkOpen f) s
  | linkClose tag => exact exec_takeUpTo_keepsLink none tag .linkClose s
  | quiesce tag deadline => exact exec_takeUpTo_keepsLink none tag (.quiesce deadline) s
  | openIntake tag => exact exec_takeUpTo_keepsLink none tag .openIntake s
  | statsRead tag f => exact exec_takeUpTo_keepsLink none tag (.statsRead f) s
  | faults tag f => exact exec_takeUpTo_keepsLink none tag (.faults f) s
  | fence tag => exact exec_takeUpTo_keepsLink none tag .fence s
  | quiesceDeadline => exact ⟨_, rfl, .of_link (quiesceDeadline_link s)⟩
  | statsItemRead board => exact ⟨_, rfl, statsItemRead_keepsLink board s⟩
  | statsReadDone => exact ⟨_, rfl, .of_link (statsReadDone_link s)⟩
  | routerTake pause => exact ⟨_, rfl, routerTake_keepsLink pause s⟩
  | holdRelease => exact ⟨_, rfl, .of_link (holdRelease_link s)⟩
  | handoverTake => exact ⟨_, rfl, .of_link (handoverTake_link s)⟩
  | applicationRequest line => exact ⟨_, rfl, .of_link (applicationRequest_link line s)⟩
  | pulseEnd line => exact ⟨_, rfl, .of_link rfl⟩
  | eventRecordTake poster => exact ⟨_, rfl, .of_link (eventRecordTake_link poster s)⟩
  | recordWriteDone target => exact ⟨_, rfl, .of_link (recordWriteDone_link target s)⟩
  | rawChange line level => exact ⟨_, rfl, .of_link (rawChange_link line level s)⟩
  | filterAccept line => exact ⟨_, rfl, .of_link (filterAccept_link line s)⟩
  | spacingEnd line => exact ⟨_, rfl, .of_link (spacingEnd_link line s)⟩
  | faultRaise index => exact ⟨_, rfl, .of_link (faultRaise_link index s)⟩
  | crcError => exact ⟨_, rfl, .ite (fun _ => .refl s) fun _ => countLink_keepsLink _ s⟩
  | frameMalformed => exact ⟨_, rfl, receive_keepsLink (fun s => countLink_keepsLink _ s) s⟩
  | rxHello sender seen => exact ⟨_, rfl, receive_keepsLink (intact_keepsLink (takeHello_keepsLink sender seen)) s⟩
  | rxClose sender => exact ⟨_, rfl, receive_keepsLink (intact_keepsLink (takeClose_keepsLink sender)) s⟩
  | rxIdle sender => exact ⟨_, rfl, receive_keepsLink (intact_keepsLink (f := fun s => s) .refl) s⟩
  | rxEvent f => exact ⟨_, rfl, receive_keepsLink (takeEvent_keepsLink f) s⟩
  | rxAck next => exact ⟨_, rfl, receive_keepsLink (takeAck_keepsLink next) s⟩
  | rxProbe number t1 => exact ⟨_, rfl, receive_keepsLink (takeProbe_keepsLink number t1) s⟩
  | rxEcho number t1 t2 t3 part => exact ⟨_, rfl, rxEcho_keepsLink number t1 t2 t3 part s⟩
  | frameTransmit => exact ⟨_, rfl, frameTransmit_keepsLink s⟩
  | frameSent => exact ⟨_, rfl, frameSent_keepsLink s⟩
  | helloTimer => exact ⟨_, rfl, helloTimer_keepsLink s⟩
  | openTimeout => exact ⟨_, rfl, openTimeout_keepsLink s⟩
  | keepalive => exact ⟨_, rfl, keepalive_keepsLink s⟩
  | silenceTimeout => exact ⟨_, rfl, silenceTimeout_keepsLink s⟩
  | probeAttemptEnd => exact ⟨_, rfl, probeAttemptEnd_keepsLink s⟩
  | probeTimer => exact ⟨_, rfl, probeTimer_keepsLink s⟩
  | ackTimeout => exact ⟨_, rfl, ackTimeout_keepsLink s⟩
  | stalenessTimeout => exact ⟨_, rfl, stalenessTimeout_keepsLink s⟩
  | tick => exact ⟨_, rfl, tick_keepsLink s⟩

/-- The step of the machine keeps the link in order. -/
theorem step_keepsLink {s t : State} (h : step s = .next t) : KeepsLink s t := by
  unfold step at h
  split at h
  · cases h
    exact .refl _
  · rename_i c rest _
    obtain ⟨u, hu, hk⟩ := exec_keepsLink c { s with pending := rest }
    rw [hu] at h
    cases h
    exact hk.after (s := s) rfl

/-- Settles O7: every meaning keeps the link context sound and its window within capacity (`exec_keepsLink`). -/
theorem stepKeepsLinkContext : Obligations.StepKeepsLinkContext := fun _ _ hs h =>
  (step_keepsLink h ⟨hs.link, hs.capacity.window⟩).sound

end Sys2Proof.Machine
end

section
/-! PROOFS. Frames that arrive on the span link: session frames (O51), PROBE and ECHO frames (O54), and the accepted ECHO
that takes an ALIGNING session UP with its announce (O55). -/

namespace Sys2Proof.Machine

/-! ### Every intact frame (R100, R104) -/

theorem arrived_eq (s : State) : arrived s = s.frameHeard := by
  unfold arrived State.frameHeard Link.heard
  rcases h : s.link.session <;> simp [onLink, countLink, h]

/-- R100, R104, R174, R179: a frame is counted, restarts the silence timer and is taken, and then what is due completes. -/
theorem receive_eq {s : State} (h : s.resetHeld = false) (f : State → State) :
    receive f s = (f s.frameHeard).settled := by
  rw [receive, if_neg (by simp [h]), arrived_eq, settle_eq_settled]

theorem Session.inCall_iff (x : Session) : x.inCall = true ↔ x = .calling ∨ x = .aligning ∨ x = .up := by
  cases x <;> decide

/-! ### HELLO and CLOSE frames (R104, R106, R108, R113, R114) -/

section
variable {s : State} {sender seen : Half}

theorem takeHello_unanswered (h : s.link.session = .closed ∨ s.link.session = .failed) : takeHello sender seen s
    = countLink (fun c => { c with hellosUnanswered := bump c.hellosUnanswered }) s := by
  rcases h with h | h <;> simp only [takeHello, h]

theorem takeHello_calling (h : s.link.session = .calling) (hseen : seen ≠ s.link.own) :
    takeHello sender seen s = onLink (fun l => { l with recorded := sender }) s := by
  simp only [takeHello, h, onLink, Link.helloInCall]
  rw [if_neg hseen]

/-- R108: the peer has seen this side's session. -/
theorem takeHello_seen (h : s.link.session = .calling) (hseen : seen = s.link.own) :
    takeHello sender seen s = onLink (fun l => Link.enterAligning { l with recorded := sender }) s := by
  simp only [takeHello, h, onLink, Link.helloInCall]
  rw [if_pos hseen]

/-- R113: in ALIGNING and UP a HELLO is held to the session pair. -/
theorem takeHello_probing (h : s.link.session = .aligning ∨ s.link.session = .up) : takeHello sender seen s
    = if sender = s.link.recorded ∧ seen = s.link.own then s else s.sessionFailed .peerRestart := by
  rcases h with h | h <;> simp [takeHello, h, Link.pairMatches, enterFailed_sessionFailed]

theorem takeClose_matched (hs : s.link.session = .calling ∨ s.link.session = .aligning ∨ s.link.session = .up)
    (h0 : sender ≠ 0) (hr : sender = s.link.recorded) :
    takeClose sender s = s.transition .aborted (s.link.ended .closed .peerClose false) := by
  subst hr
  simp only [takeClose, (Session.inCall_iff _).2 hs, bne_iff_ne.2 h0, BEq.rfl, Bool.and_self, if_true,
    enterClosed_transition]

theorem takeClose_unmatched (h : ¬ (s.link.session = .calling ∨ s.link.session = .aligning ∨ s.link.session = .up)
    ∨ sender ≠ s.link.recorded) : takeClose sender s = countUnexpected s := by
  refine if_neg fun hc => ?_
  simp only [Bool.and_eq_true, beq_iff_eq] at hc
  exact h.elim (fun hs => hs ((Session.inCall_iff _).1 hc.1.1)) fun hr => hr hc.1.2

end

/-- R101: a frame with a sender session that is not 0 is taken. -/
theorem exec_rxHello {s : State} {sender : Half} (h : s.resetHeld = false) (h0 : sender ≠ 0) (seen : Half) :
    exec (.rxHello sender seen) s = .next (takeHello sender seen s.frameHeard).settled :=
  congrArg Host.Outcome.next ((receive_eq h _).trans (by rw [if_neg h0]))

theorem exec_rxClose {s : State} {sender : Half} (h : s.resetHeld = false) (h0 : sender ≠ 0) :
    exec (.rxClose sender) s = .next (takeClose sender s.frameHeard).settled :=
  congrArg Host.Outcome.next ((receive_eq h _).trans (by rw [if_neg h0]))

theorem exec_rxIdle {s : State} {sender : Half} (h : s.resetHeld = false) (h0 : sender ≠ 0) :
    exec (.rxIdle sender) s = .next s.frameHeard.settled :=
  congrArg Host.Outcome.next ((receive_eq h _).trans (by rw [if_neg h0]))

/-- Settles O51, frame by frame: each is heard (`receive_eq`), and moves the session by its state. -/
theorem sessionFramesMoveSession : Obligations.SessionFramesMoveSession := by
  refine ⟨fun s sender seen f value number t1 t2 t3 => ⟨fun h => ⟨?_, ?_, fun h0 => exec_rxIdle h h0⟩,
    ⟨rfl, rfl, rfl⟩, fun h i hi => ?_⟩, fun s sender seen h h0 => ?_, fun s sender h h0 => ?_⟩
  · exact congrArg Host.Outcome.next (if_neg (by simp [h]))
  · exact congrArg Host.Outcome.next (receive_eq h _)
  · simp only [List.mem_cons, List.not_mem_nil, or_false] at hi
    rcases hi with rfl | rfl | rfl | rfl | rfl | rfl | rfl | rfl | rfl <;>
      exact congrArg Host.Outcome.next (if_pos h)
  · intro u recorded
    have hello : ∀ {v : State}, takeHello sender seen u = v → exec (.rxHello sender seen) s = .next v.settled :=
      fun hv => (exec_rxHello h h0 seen).trans (by rw [hv])
    exact ⟨fun hs => hello (takeHello_unanswered hs), fun hs hseen => hello (takeHello_calling hs hseen),
      fun hs hseen => hello (takeHello_seen hs hseen),
      fun hs hsender hseen => hello ((takeHello_probing (s := u) hs).trans (if_pos ⟨hsender, hseen⟩)),
      fun hs hne => hello ((takeHello_probing (s := u) hs).trans (if_neg (not_and_or.2 hne)))⟩
  · intro u inCall
    have close : ∀ {v : State}, takeClose sender u = v → exec (.rxClose sender) s = .next v.settled :=
      fun hv => (exec_rxClose h h0).trans (by rw [hv])
    exact ⟨fun hs hr => close (takeClose_matched hs h0 hr), fun hn => close (takeClose_unmatched hn)⟩

/-! ### PROBE and ECHO frames (R104, R131 to R133) -/

theorem Session.not_probes {x : Session} (h : ¬ (x = .aligning ∨ x = .up)) : ¬ x.probes = true :=
  mt (Session.probes_iff x).1 h

/-- R132: the ECHO answers the outstanding probe when number and t1 are the probe's. -/
theorem Link.answered_eq_some (l : Link) (number : Byte) (t1 : Quad) (sent : Nat) : l.answered number t1 = some sent ↔
    l.outstanding = some (number, sent) ∧ t1 = BitVec.ofNat 64 sent := by
  unfold Link.answered
  rcases l.outstanding with _ | ⟨n, t⟩
  · simp
  · simp only [Option.ite_none_right_eq_some, Option.some.injEq, Prod.mk.injEq]
    constructor
    · rintro ⟨⟨rfl, rfl⟩, rfl⟩; exact ⟨⟨rfl, rfl⟩, rfl⟩
    · rintro ⟨⟨rfl, rfl⟩, rfl⟩; exact ⟨⟨rfl, rfl⟩, rfl⟩

section
variable {s : State} {number : Byte} {t1 t2 t3 : Quad} {pause : Option Nat}

theorem exec_rxEcho (h : s.resetHeld = false) : exec (.rxEcho number t1 t2 t3 (.frame pause)) s
    = .next (takeEcho number t1 t2 t3 pause s.frameHeard).settled :=
  congrArg Host.Outcome.next (receive_eq h _)

theorem takeEcho_answers {sent : Nat} (probing : s.link.session = .aligning ∨ s.link.session = .up)
    (answers : s.link.outstanding = some (number, sent) ∧ t1 = BitVec.ofNat 64 sent) :
    takeEcho number t1 t2 t3 pause s = judgeEcho sent t2 t3 pause s := by
  have answered := (s.link.answered_eq_some number t1 sent).2 answers
  simp only [takeEcho, (Session.probes_iff _).2 probing, answered, if_true]

theorem takeEcho_ignored (probing : s.link.session = .aligning ∨ s.link.session = .up)
    (stray : ∀ sent, s.link.outstanding = some (number, sent) → t1 ≠ BitVec.ofNat 64 sent) :
    takeEcho number t1 t2 t3 pause s = countLink (fun c => { c with echoesIgnored := bump c.echoesIgnored }) s := by
  have answered : s.link.answered number t1 = none := Option.eq_none_iff_forall_ne_some.2 fun sent ha =>
    have answers := (s.link.answered_eq_some number t1 sent).1 ha
    stray sent answers.1 answers.2
  simp only [takeEcho, (Session.probes_iff _).2 probing, answered, if_true]

theorem takeEcho_unexpected (h : ¬ (s.link.session = .aligning ∨ s.link.session = .up)) :
    takeEcho number t1 t2 t3 pause s = countUnexpected s := if_neg (Session.not_probes h)

/-- R132: a delay outside 0 to the max path delay rejects the ECHO. -/
theorem judgeEcho_rejected {sent : Nat} (h : echoDelay sent t2.toNat t3.toNat s.localTime < 0
      ∨ (s.link.params.maxDelay : Int) < echoDelay sent t2.toNat t3.toNat s.localTime) :
    judgeEcho sent t2 t3 pause s = onLink Link.reject s := if_neg (by omega)

theorem judgeEcho_up {sent : Nat} (up : s.link.session = .up)
    (low : 0 ≤ echoDelay sent t2.toNat t3.toNat s.localTime)
    (high : echoDelay sent t2.toNat t3.toNat s.localTime ≤ (s.link.params.maxDelay : Int)) :
    judgeEcho sent t2 t3 pause s = onLink (Link.accept (echoOffset sent t2.toNat t3.toNat s.localTime)
      (echoDelay sent t2.toNat t3.toNat s.localTime)) s :=
  (if_pos ⟨low, high⟩).trans (if_neg (by simp [up]))

/-- R110: an accepted ECHO takes an ALIGNING session UP. -/
theorem judgeEcho_aligning {sent : Nat} (aligning : s.link.session = .aligning)
    (low : 0 ≤ echoDelay sent t2.toNat t3.toNat s.localTime)
    (high : echoDelay sent t2.toNat t3.toNat s.localTime ≤ (s.link.params.maxDelay : Int)) :
    judgeEcho sent t2 t3 pause s = enterUp pause (onLink (Link.accept (echoOffset sent t2.toNat t3.toNat s.localTime)
      (echoDelay sent t2.toNat t3.toNat s.localTime)) s) :=
  (if_pos ⟨low, high⟩).trans (if_pos aligning)

end

theorem exec_rxProbe {s : State} (h : s.resetHeld = false) (number : Byte) (t1 : Quad) :
    exec (.rxProbe number t1) s = .next (takeProbe number t1 s.frameHeard).settled :=
  congrArg Host.Outcome.next (receive_eq h _)

/-- Settles O54: a PROBE by the session state, and an ECHO by the probe it answers and the delay it gives. -/
theorem probesAndEchoes : Obligations.ProbesAndEchoes := by
  refine ⟨fun s number t1 h => ⟨fun probing => ?_, fun notProbing => ?_⟩,
    fun s number sent t1 t2 t3 pause h => ?_⟩
  · exact (exec_rxProbe h number t1).trans
      (congrArg (Host.Outcome.next ∘ State.settled) (if_pos ((Session.probes_iff _).2 probing)))
  · exact (exec_rxProbe h number t1).trans
      (congrArg (Host.Outcome.next ∘ State.settled) (if_neg (Session.not_probes notProbing)))
  · intro u l echo now delay offset answers takes
    have taken : ∀ {v : State}, takeEcho number t1 t2 t3 pause u = v → echo = .next v.settled :=
      fun hv => (exec_rxEcho h).trans (by rw [hv])
    exact ⟨fun up ans low high => taken ((takeEcho_answers (s := u) (.inr up) ans).trans
        (judgeEcho_up (s := u) up low high)),
      fun probing ans out => taken ((takeEcho_answers (s := u) probing ans).trans (judgeEcho_rejected out)),
      fun probing stray => taken (takeEcho_ignored probing stray),
      fun notProbing => taken (takeEcho_unexpected notProbing)⟩

/-! ### The announce at an entry to UP (R8, R79, R81) -/

/-- R81: a line whose announce event is refused, by an OPEN intake that is full or by a CLOSED one. -/
def InputLine.refused (isOpen : Bool) (l : InputLine) : InputLine :=
  { l with counters :=
    if isOpen then { l.counters with lost := bump l.counters.lost }
    else { l.counters with refusedClosed := bump l.counters.refusedClosed } }

/-- R81: each of these lines has had its announce event refused: it is counted on the line, and INTAKE_FULL is raised
with the line where the intake is OPEN. -/
def State.announceRefused (lines : List (Fin 16)) (s : State) : State :=
  { s with
    inputs := Vector.ofFn fun n => if n ∈ lines then s.inputs[n].refused s.intakeOpen else s.inputs[n]
    raises := if s.intakeOpen then s.raises ++ lines.map fun n => ⟨.intakeFull, lineContext n⟩ else s.raises }

/-- R8, R81: each of these lines has made its announce event, in this order: the intake has accepted those it had room
for, and refused those behind them. -/
def State.announced (lines : List (Fin 16)) (s : State) : State :=
  (s.stateEventsMade (s.acceptedLines lines)).announceRefused (lines.drop (s.acceptedLines lines).length)

theorem announceRefused_input (ns : List (Fin 16)) (s : State) (m : Fin 16) : (s.announceRefused ns).inputs[m]
    = if m ∈ ns then s.inputs[m].refused s.intakeOpen else s.inputs[m] := by
  simp [State.announceRefused]

theorem announceRefused_intakeOpen (ns : List (Fin 16)) (s : State) :
    (s.announceRefused ns).intakeOpen = s.intakeOpen := by simp only [State.announceRefused]

theorem announceRefused_intake (ns : List (Fin 16)) (s : State) : (s.announceRefused ns).intake = s.intake := by
  simp only [State.announceRefused]

/-- Refused offers change the lines and the raises alone. -/
def OnlyRefusalFields (s t : State) : Prop := t = { s with inputs := t.inputs, raises := t.raises }

theorem OnlyRefusalFields.trans {s t u : State} (h : OnlyRefusalFields s t) (k : OnlyRefusalFields t u) :
    OnlyRefusalFields s u := by
  unfold OnlyRefusalFields at *
  rw [k, h]

theorem OnlyRefusalFields.ext {s t u : State} (h : OnlyRefusalFields s t) (k : OnlyRefusalFields s u)
    (inputs : ∀ m : Fin 16, t.inputs[m] = u.inputs[m]) (raises : t.raises = u.raises) : t = u := by
  unfold OnlyRefusalFields at *
  rw [h, k, raises, show t.inputs = u.inputs from Vector.ext fun m hm => inputs ⟨m, hm⟩]

theorem announceRefused_only (ns : List (Fin 16)) (s : State) : OnlyRefusalFields s (s.announceRefused ns) := rfl

theorem announceRefused_nil (s : State) : s.announceRefused [] = s :=
  (announceRefused_only [] s).ext rfl (fun m => (announceRefused_input [] s m).trans (if_neg List.not_mem_nil))
    (by simp [State.announceRefused])

/-- R8: lines refused one after another, no line twice. -/
theorem announceRefused_cons {n : Fin 16} {ns : List (Fin 16)} (hn : n ∉ ns) (s : State) :
    (s.announceRefused [n]).announceRefused ns = s.announceRefused (n :: ns) := by
  have only := (announceRefused_only [n] s).trans (announceRefused_only ns _)
  refine only.ext (announceRefused_only (n :: ns) s) (fun m => ?_) ?_
  · simp only [announceRefused_input, announceRefused_intakeOpen, List.mem_cons, List.not_mem_nil, or_false]
    by_cases hm : m = n <;> simp [hm, hn]
  · cases hopen : s.intakeOpen <;> simp [State.announceRefused, hopen]

/-- R81: the offer of a line that announces, refused. -/
theorem announceLine_refused {s : State} {n : Fin 16} (hm : s.inputs[n].config.mode ≠ .off)
    (h : offerAnswer s ≠ .accepted) : announceLine n s = s.announceRefused [n] := by
  have line : ∀ l : InputLine, l = s.inputs[n].refused s.intakeOpen →
      ∀ m : Fin 16, (s.inputs.set n l)[m] = (s.announceRefused [n]).inputs[m] := fun l hl m => by
    rw [announceRefused_input, hl]
    simp only [Fin.getElem_fin, Vector.getElem_set, List.mem_singleton, Fin.ext_iff]
    by_cases hmn : (n : Nat) = m
    · simp [hmn]
    · rw [if_neg hmn, if_neg (fun e => hmn e.symm)]
  cases hopen : s.intakeOpen with
  | true =>
    have full : offerAnswer s = .full := (offerAnswer_full_iff s).2
      ⟨hopen, Nat.le_of_not_lt fun room => h ((offerAnswer_accepted_iff s).2 ⟨hopen, room⟩)⟩
    rw [announceLine_full hm full]
    exact OnlyRefusalFields.ext (s := s) rfl (announceRefused_only _ s) (line _ (by simp [InputLine.refused, hopen]))
      (by simp [State.announceRefused, hopen, loseToFull, raiseFault, setInput])
  | false =>
    rw [announceLine_closed hm ((offerAnswer_closed_iff s).2 hopen)]
    exact OnlyRefusalFields.ext (s := s) rfl (announceRefused_only _ s) (line _ (by simp [InputLine.refused, hopen]))
      (by simp [State.announceRefused, hopen, loseToClosed, setInput])

theorem offerAnswer_announceRefused (ns : List (Fin 16)) (s : State) :
    offerAnswer (s.announceRefused ns) = offerAnswer s := by
  unfold offerAnswer
  rw [announceRefused_intakeOpen, announceRefused_intake]

/-- R81: an announce event is made first, and those of the lines after it then. -/
theorem announced_cons {s : State} {n : Fin 16} {ns : List (Fin 16)} (hm : s.inputs[n].config.mode ≠ .off)
    (hn : n ∉ ns) : (announceLine n s).announced ns = s.announced (n :: ns) := by
  by_cases h : offerAnswer s = .accepted
  · simp only [State.announced, announceLine_accepted hm h, acceptedLines_cons h, stateEventsMade_cons,
      List.length_cons, List.drop_succ_cons]
  · have h' : offerAnswer (s.announceRefused [n]) ≠ .accepted := by rwa [offerAnswer_announceRefused]
    simp only [State.announced, announceLine_refused hm h, acceptedLines_refused h, acceptedLines_refused h',
      stateEventsMade_nil, List.length_nil, List.drop_zero, announceRefused_cons hn]

theorem announced_nil (s : State) : s.announced [] = s := by
  simp only [State.announced, acceptedLines_nil, stateEventsMade_nil, List.drop_nil, announceRefused_nil]

theorem announceLine_mode (n m : Fin 16) (s : State) :
    (announceLine n s).inputs[m].config.mode = s.inputs[m].config.mode :=
  congrArg (fun x : Settings => (x.inputs m).mode) (announceLine_settings n s)

/-- R81: an offer of the announce does not read which lines are still to come. -/
theorem announceLine_announcing (n : Fin 16) (lines : List (Fin 16)) (s : State) :
    announceLine n { s with announcing := lines } = { announceLine n s with announcing := lines } := by
  by_cases hm : s.inputs[n].config.mode = .off
  · rw [announceLine_off hm, announceLine_off (s := { s with announcing := lines }) hm]
  · by_cases h : offerAnswer s = .accepted
    · rw [announceLine_accepted hm h, announceLine_accepted (s := { s with announcing := lines }) hm h]
      rfl
    · rw [announceLine_refused hm h, announceLine_refused (s := { s with announcing := lines }) hm h]
      rfl

/-- R8, R81: up to `k` offers of an announce, none of whose lines is OFF or named twice. -/
theorem announceNext_announced (k : Nat) {lines : List (Fin 16)} {s : State}
    (hm : ∀ n ∈ lines, s.inputs[n].config.mode ≠ .off) (distinct : lines.Nodup) :
    announceNext k { s with announcing := lines }
      = State.announced (lines.take k) { s with announcing := lines.drop k } := by
  induction k generalizing s lines with
  | zero => rw [List.take_zero, announced_nil]; rfl
  | succ k ih =>
    cases lines with
    | nil => rw [List.take_nil, announced_nil]; rfl
    | cons n rest =>
      obtain ⟨hn, distinct⟩ := List.nodup_cons.1 distinct
      have hm' : ∀ m ∈ rest, (announceLine n s).inputs[m].config.mode ≠ .off := fun m hr => by
        rw [announceLine_mode]; exact hm m (List.mem_cons_of_mem n hr)
      calc announceNext (k + 1) { s with announcing := n :: rest }
          = announceNext k { announceLine n s with announcing := rest } := by
            rw [← announceLine_announcing n rest s]; rfl
        _ = (announceLine n { s with announcing := rest.drop k }).announced (rest.take k) := by
            rw [ih hm' distinct, announceLine_announcing n (rest.drop k) s]
        _ = _ := announced_cons (s := { s with announcing := rest.drop k }) (hm n List.mem_cons_self)
            fun h => hn (List.mem_of_mem_take h)

/-- R81: the lines that announce, in the words of O55. -/
theorem announcingLines_eq (s : State) : announcingLines s
    = (List.finRange 16).filter fun n => s.inputs[n].config.announce ∧ s.inputs[n].config.mode ≠ .off :=
  List.filter_congr fun n _ => by rw [Bool.decide_and, Bool.decide_eq_true, decide_not]; rfl

/-- R8, R81: an announce that begins with none under way. -/
theorem announce_announced {s : State} (ha : s.announcing = []) (pause : Option Nat) : announce pause s
    = let count := pause.getD (announcingLines s).length
      State.announced ((announcingLines s).take count) { s with announcing := (announcingLines s).drop count } := by
  have hm : ∀ n ∈ announcingLines s, s.inputs[n].config.mode ≠ .off := fun n h => by
    have announces := (List.mem_filter.1 h).2
    simp only [Bool.and_eq_true, bne_iff_ne] at announces
    exact announces.2
  simp only [announce, announceOn, ha, List.nil_append]
  exact announceNext_announced _ hm ((List.nodup_finRange 16).filter _)

/-- R8, R81: the lines after these wait, while these have made their offers. -/
theorem announced_eq (lines rest : List (Fin 16)) (u : State) :
    let made := u.acceptedLines lines
    let v := u.stateEventsMade made
    State.announced lines { u with announcing := rest } = { v with
      announcing := rest
      inputs := Vector.ofFn fun n =>
        if n ∈ lines.drop made.length then v.inputs[n].refused u.intakeOpen else v.inputs[n]
      raises := if u.intakeOpen then u.raises ++ (lines.drop made.length).map fun n => ⟨.intakeFull, lineContext n⟩
        else u.raises } := by
  rfl

theorem acceptedLines_congr {s t : State} (hopen : t.intakeOpen = s.intakeOpen) (intake : t.intake = s.intake)
    (lines : List (Fin 16)) : t.acceptedLines lines = s.acceptedLines lines := by
  simp only [State.acceptedLines, hopen, intake]

/-- R110: a transition to a given link does not read the link before it. -/
theorem transition_onLink (status : Status) (f : Link → Link) (l : Link) (s : State) :
    (onLink f s).transition status l = s.transition status l := rfl

theorem frameHeard_eq (s : State) : s.frameHeard = onLink (fun _ => s.frameHeard.link) s := rfl

/-- R8, R81: the announce of a state with none under way, in terms of a state that has the same intake, lines and raises
as it. -/
theorem announce_made {s u : State} (ha : u.announcing = []) (hopen : u.intakeOpen = s.intakeOpen)
    (intake : u.intake = s.intake) (inputs : u.inputs = s.inputs) (raises : u.raises = s.raises)
    {pause : Option Nat} {lines : List (Fin 16)} {count : Nat} (hlines : announcingLines s = lines)
    (hcount : pause.getD lines.length = count) {made : List (Fin 16)} (hmade : s.acceptedLines (lines.take count) = made)
    {v : State} (hv : u.stateEventsMade made = v) :
    let refused := (lines.take count).drop made.length
    announce pause u = { v with
      announcing := lines.drop count
      inputs := Vector.ofFn fun n => if n ∈ refused then v.inputs[n].refused s.intakeOpen else v.inputs[n]
      raises := if s.intakeOpen then s.raises ++ refused.map fun n => ⟨.intakeFull, lineContext n⟩
        else s.raises } := by
  have same : announcingLines u = announcingLines s := by rw [announcingLines, announcingLines, inputs]
  simp only [← hv, ← hmade, ← hcount, ← hlines, ← same, ← acceptedLines_congr hopen intake, ← hopen, ← raises]
  exact (announce_announced ha pause).trans (announced_eq _ _ u)

/-! ### The entry to UP (R79, R81, R110, R132) -/

/-- R110, R118: the session's transition to UP, and the announce behind it. -/
theorem enterUp_transition (pause : Option Nat) (s : State) :
    enterUp pause s = announce pause (s.transition .ok s.link.enterUp) := by
  simp only [enterUp, onLink, finishLinkOpen_eq, postLinkNotice_when, State.transition, linkNotice]
  rfl

/-- Settles O55: the accepted ECHO (`judgeEcho_aligning`), the transition (`enterUp_transition`) and the announce
(`announce_made`). -/
theorem acceptedEchoBringsSessionUp : Obligations.AcceptedEchoBringsSessionUp := by
  intro s number sent t1 t2 t3 pause h aligning ha outstanding answers now delay offset low high l up u lines count
    made refused v
  have moved : s.frameHeard.link.session = .aligning := aligning
  have entered : (onLink (Link.accept offset delay) s.frameHeard).transition .ok up = u := by
    rw [transition_onLink, frameHeard_eq, transition_onLink]
  have echo : takeEcho number t1 t2 t3 pause s.frameHeard = announce pause u :=
    (takeEcho_answers (.inl moved) ⟨outstanding, answers⟩).trans <|
      (judgeEcho_aligning moved low high).trans <| (enterUp_transition _ _).trans (congrArg (announce pause) entered)
  have hcount : pause.getD lines.length = count := by cases pause <;> rfl
  rw [exec_rxEcho h, echo, announce_made (s := s) (u := u) ha rfl rfl rfl rfl (announcingLines_eq s) hcount
    (made := made) rfl (v := v) rfl]
  clear_value v
  rfl

end Sys2Proof.Machine
end

section
/-! PROOFS. The link's elapsed timers (O57), the transmitter (O56) and LINK_OPEN (O31). -/

namespace Sys2Proof.Machine

/-! ### The link's elapsed timers (R106, R107, R109, R111, R112, R124, R125, R130, R133) -/

/-- R62, R63: a timer has reached an interval when it runs and the interval has passed. -/
theorem reached_iff {timer : Option Nat} {interval : Nat} :
    reached timer interval = true ↔ ∃ m, timer = some m ∧ interval ≤ m := by
  cases timer <;> simp [reached]

theorem reached_of {timer : Option Nat} {interval n : Nat} (h : timer = some n) (hn : interval ≤ n) :
    reached timer interval = true := reached_iff.2 ⟨n, h, hn⟩

/-- Log entry 2: a timer whose interval has not passed in its session states does not act. -/
theorem not_reached {inState : Prop} {timer : Option Nat} {interval : Nat}
    (h : ¬ (inState ∧ ∃ m, timer = some m ∧ interval ≤ m)) : ¬ (inState ∧ reached timer interval = true) :=
  mt (And.imp_right reached_iff.1) h

section
variable {s : State}

/-- R107, R109, R112, R125: a failing expiry, and what is due after it. -/
theorem settle_enterFailed (reason : Reason) (s : State) :
    settle (enterFailed reason s) = (s.sessionFailed reason).settled := by
  rw [settle_eq_settled, enterFailed_sessionFailed]

theorem keepalive_acts (hs : s.link.session = .calling ∨ s.link.session = .aligning ∨ s.link.session = .up)
    (hr : reached s.link.keepTimer (s.link.params.idleTimeout / 4) = true) : keepalive s = onLink Link.makeIdle s :=
  if_pos ⟨(Session.inCall_iff _).2 hs, hr⟩

theorem keepalive_idle (h : ¬ ((s.link.session = .calling ∨ s.link.session = .aligning ∨ s.link.session = .up)
    ∧ reached s.link.keepTimer (s.link.params.idleTimeout / 4) = true)) : keepalive s = s :=
  if_neg (mt (And.imp_left (Session.inCall_iff _).1) h)

/-- R109: the attempt is followed by the next before the fourth. -/
theorem probeAttemptEnd_next (hs : s.link.session = .aligning)
    (hr : reached s.link.attemptTimer s.link.params.alignInterval = true) (ha : s.link.attempts < 4) :
    probeAttemptEnd s = onLink Link.nextAttempt s := (if_pos ⟨hs, hr⟩).trans (if_pos ha)

theorem probeAttemptEnd_fails (hs : s.link.session = .aligning)
    (hr : reached s.link.attemptTimer s.link.params.alignInterval = true) (ha : 4 ≤ s.link.attempts) :
    probeAttemptEnd s = (s.sessionFailed .alignFailed).settled :=
  ((if_pos ⟨hs, hr⟩).trans (if_neg (Nat.not_lt.2 ha))).trans (settle_enterFailed _ s)

/-- R133: a FRESH alignment becomes STALE. -/
theorem stalenessTimeout_acts (hs : s.link.session = .up)
    (hr : reached s.link.staleTimer (4 * s.link.params.alignInterval) = true) : stalenessTimeout s = { s with
      link := { s.link with staleTimer := none, fresh := false }
      raises := if s.link.fresh then s.raises ++ [⟨.alignStale, 1⟩] else s.raises } := by
  simp only [stalenessTimeout, if_pos (And.intro hs hr), raiseFault, onLink]
  cases s.link.fresh <;> rfl

section
variable {w : WindowFrame} {rest : List WindowFrame}

theorem ackTimeout_resends (hs : s.link.session = .up)
    (hr : reached s.link.ackTimer s.link.params.ackTimeout = true) (hw : s.link.window = w :: rest)
    (hretry : w.retry < s.link.params.retryLimit) : ackTimeout s
      = onLink (fun l => { l with window := resendWindow (w :: rest), ackTimer := some 0 }) s := by
  simp only [ackTimeout, if_pos (And.intro hs hr), hw, if_pos hretry, onLink]

theorem ackTimeout_fails (hs : s.link.session = .up)
    (hr : reached s.link.ackTimer s.link.params.ackTimeout = true) (hw : s.link.window = w :: rest)
    (hretry : s.link.params.retryLimit ≤ w.retry) : ackTimeout s = (s.sessionFailed .retryLimit).settled := by
  simp only [ackTimeout, if_pos (And.intro hs hr), hw, if_neg (Nat.not_lt.2 hretry), settle_enterFailed]

theorem ackTimeout_idle (h : ¬ (s.link.session = .up ∧ reached s.link.ackTimer s.link.params.ackTimeout = true
    ∧ s.link.window ≠ [])) : ackTimeout s = s := by
  by_cases hr : s.link.session = .up ∧ reached s.link.ackTimer s.link.params.ackTimeout = true
  · have empty : s.link.window = [] := by_contra fun hw => h ⟨hr.1, hr.2, hw⟩
    simp only [ackTimeout, if_pos hr, empty]
  · exact if_neg hr

end
end

/-- Settles O57: each timer acts, or fails the session, where it has reached its interval (`reached_iff`) in its session
states. -/
theorem linkTimersActOrFailSession : Obligations.LinkTimersActOrFailSession := by
  have next : ∀ {u v : State}, u = v → (Host.Outcome.next u : Host.Outcome State Fault Refusal) = .next v :=
    congrArg _
  refine ⟨fun s n => ⟨?hello, ?keep, ?attempt, ?probe, ?stale, ?helloNot, ?keepNot, ?probeNot, ?staleNot⟩,
    fun s n w rest => ?resend, fun s n => ⟨?openFails, ?attemptFails, ?silent, ?retryLimit, ?openNot, ?attemptNot,
      ?silentNot, ?ackNot⟩⟩
  case hello => exact fun hs ht hn => next (if_pos ⟨hs, reached_of ht hn⟩)
  case keep => exact fun hs ht hn => next (keepalive_acts hs (reached_of ht hn))
  case attempt => exact fun hs ht hn ha => next (probeAttemptEnd_next hs (reached_of ht hn) ha)
  case probe => exact fun hs ht hn => next (if_pos ⟨hs, reached_of ht hn⟩)
  case stale => exact fun hs ht hn => next (stalenessTimeout_acts hs (reached_of ht hn))
  case helloNot => exact fun h => next (if_neg (not_reached h))
  case keepNot => exact fun h => next (keepalive_idle (not_reached h))
  case probeNot => exact fun h => next (if_neg (not_reached h))
  case staleNot => exact fun h => next (if_neg (not_reached h))
  case resend => exact fun hs ht hn hw hretry => next (ackTimeout_resends hs (reached_of ht hn) hw hretry)
  case openFails => exact fun hs ht hn => next ((if_pos ⟨hs, reached_of ht hn⟩).trans (settle_enterFailed _ s))
  case attemptFails => exact fun hs ht hn ha => next (probeAttemptEnd_fails hs (reached_of ht hn) ha)
  case silent => exact fun hs ht hn => next ((if_pos ⟨hs, reached_of ht hn⟩).trans (settle_enterFailed _ s))
  case retryLimit =>
    exact fun w rest hs ht hn hw hretry => next (ackTimeout_fails hs (reached_of ht hn) hw hretry)
  case openNot => exact fun h => next (if_neg (not_reached h))
  case attemptNot => exact fun h => next (if_neg (not_reached h))
  case silentNot => exact fun h => next (if_neg (not_reached h))
  case ackNot =>
    exact fun h => next (ackTimeout_idle (mt (And.imp_right (And.imp_left reached_iff.1)) h))

/-! ### The transmitter (R102, R111, R122, R130, R131) -/

/-- R122: the oldest PENDING frame of a window is taken and marked SENT. -/
theorem takePending_oldest {sent : List WindowFrame} (hsent : ∀ x ∈ sent, x.isPending = false) {w : WindowFrame}
    (hw : w.isPending = true) (rest : List WindowFrame) : takePending (sent ++ w :: rest)
      = some (sent ++ { w with isPending := false, sentBefore := true } :: rest, ⟨w.frame, w.sentBefore⟩) := by
  induction sent with
  | nil => exact if_pos hw
  | cons x sent ih =>
    have taken := ih fun y hy => hsent y (List.mem_cons_of_mem x hy)
    simp only [List.cons_append, takePending, hsent x List.mem_cons_self, taken]
    rfl

theorem takePending_none {window : List WindowFrame} (h : ∀ x ∈ window, x.isPending = false) :
    takePending window = none := by
  induction window with
  | nil => rfl
  | cons x window ih =>
    simp only [takePending, h x List.mem_cons_self, ih fun y hy => h y (List.mem_cons_of_mem x hy)]
    rfl

theorem frameTransmit_free {s : State} (h : s.link.lane = none) :
    frameTransmit s = onLink (Link.transmit s.localTime) s := if_pos h

theorem frameSent_busy {s : State} {f : LaneFrame} (h : s.link.lane = some f) :
    frameSent s = onLink (Link.sent f) s := by simp only [frameSent, h]

theorem frameSent_free {s : State} (h : s.link.lane = none) : frameSent s = s := by simp only [frameSent, h]

/-- R122, R130: the counters of a transmission end, in the words of O56. -/
theorem LinkCounters.sent_eq (f : LaneFrame) (c : LinkCounters) : c.sent f = { c with
    framesSent := bump c.framesSent
    probesSent := match f.frame with
      | .probe _ _ => bump c.probesSent
      | _ => c.probesSent
    retransmits := match f.frame, f.resend with
      | .event _ _ _ _ _ _, true => bump c.retransmits
      | _, _ => c.retransmits } := by
  obtain ⟨frame, resend⟩ := f
  cases frame
  case event => cases resend <;> rfl
  all_goals rfl

/-- R102, R111: the link after a transmission end, in the words of O56. -/
theorem Link.sent_eq (f : LaneFrame) (l : Link) : l.sent f = { l with
    lane := none
    keepTimer := if l.session = .calling ∨ l.session = .aligning ∨ l.session = .up then some 0 else l.keepTimer
    counters := { l.counters with
      framesSent := bump l.counters.framesSent
      probesSent := match f.frame with
        | .probe _ _ => bump l.counters.probesSent
        | _ => l.counters.probesSent
      retransmits := match f.frame, f.resend with
        | .event _ _ _ _ _ _, true => bump l.counters.retransmits
        | _, _ => l.counters.retransmits } } := by
  simp only [Link.sent, Session.inCall_iff, LinkCounters.sent_eq]

/-- Settles O56: what waits, kind by kind in the order of R102, and the end of a transmission (`Link.sent_eq`). -/
theorem transmitterSendsNextFrame : Obligations.TransmitterSendsNextFrame := by
  refine ⟨fun s => ?_, fun s => ⟨fun f hf => ?_, fun free => congrArg Host.Outcome.next (frameSent_free free)⟩⟩
  · intro l send now
    refine ⟨fun busy => congrArg Host.Outcome.next (if_neg busy), fun free => ?_⟩
    have taken : ∀ {l' : Link}, l.transmit s.localTime = l' → exec .frameTransmit s = .next { s with link := l' } :=
      fun hl => congrArg Host.Outcome.next ((frameTransmit_free free).trans
        (congrArg (fun x => { s with link := x }) hl))
    refine ⟨fun session close => taken ?_, fun close => ⟨fun e rest echo => taken ?_, fun echo =>
      ⟨fun value ack => taken ?_, fun ack => ⟨fun n rest probe => taken ?_, fun probe =>
      ⟨fun own seen rest hello => taken ?_, fun hello => ⟨fun sent w rest window hsent hw => taken ?_, fun window =>
      ⟨fun session rest idle => taken ?_, fun idle => taken ?_⟩⟩⟩⟩⟩⟩⟩
    · simp only [Link.transmit, close]; rfl
    · simp only [Link.transmit, close, echo]; rfl
    · simp only [Link.transmit, close, echo, ack]; rfl
    · simp only [Link.transmit, close, echo, ack, probe]; rfl
    · simp only [Link.transmit, close, echo, ack, probe, hello]; rfl
    · simp only [Link.transmit, close, echo, ack, probe, hello, window, takePending_oldest hsent hw]; rfl
    · simp only [Link.transmit, close, echo, ack, probe, hello, takePending_none window, idle]; rfl
    · simp only [Link.transmit, close, echo, ack, probe, hello, takePending_none window, idle]; rfl
  · exact congrArg Host.Outcome.next ((frameSent_busy hf).trans
      (congrArg (fun l => { s with link := l }) (Link.sent_eq f s.link)))

/-! ### LINK_OPEN (R105, R106, R158, R171) -/

theorem linkOpen_calls {s : State} {g : Geometry} (r : Ready s g) (tag : Word) {f : LinkOpenFields}
    (hf : FieldsInRange s (.linkOpen f)) (hs : s.link.session = .closed ∨ s.link.session = .failed) :
    exec (.linkOpen tag f) s
      = .next (State.commandJoined g (joinDeferred tag .linkOpen (onLink (Link.call (linkParamsOf f)) s))) := by
  have executed : linkOpenExecution tag f .nothing (s.taken g [])
      = ((joinDeferred tag .linkOpen (onLink (Link.call (linkParamsOf f)) s)).taken g [], .joined) := by
    rcases hs with hs | hs <;>
    · have hs' : (s.taken g []).link.session = _ := hs
      simp only [linkOpenExecution, whole, (linkOpenInRange_iff s f).2 hf, hs', if_true]
      rfl
  exact congrArg Host.Outcome.next (runCommand_commandJoined r r.running r.free executed)

/-- Settles O31: LINK_OPEN calls (`linkOpen_calls`), or answers with the session state and leaves the state as it is. -/
theorem linkOpenCallsOrIsRefused : Obligations.LinkOpenCallsOrIsRefused := by
  intro s g tag f r hf own calling
  have answered : ∀ {status : Status} {word : Word},
      linkOpenExecution tag f .nothing (s.taken g []) = (s.taken g [], .done status word 0 0) →
      exec (.linkOpen tag f) s = .next (s.commandDone g [] (.completion 0x0D tag status word 0 0)) :=
    fun executed => congrArg Host.Outcome.next (runCommand_commandDone r r.running r.free executed)
  have inRange := (linkOpenInRange_iff s f).2 hf
  refine ⟨fun hs => linkOpen_calls r tag hf hs, fun hs => answered ?_, fun hs => answered ?_, fun hs => answered ?_⟩
  all_goals
    have hs' : (s.taken g []).link.session = _ := hs
    simp only [linkOpenExecution, whole, inRange, hs', if_true]
    rfl

end Sys2Proof.Machine
end

section
/-! PROOFS. Little-endian fields read back, and with them the frames of the span link (O60). -/

namespace Sys2Proof.Machine

/-! ### Little-endian fields (chapter 13) -/

@[simp] theorem le_length (n x : Nat) : (le n x).length = n := by
  induction n generalizing x with
  | zero => rfl
  | succ n ih => rw [le, List.length_cons, ih]

theorem ofLe_le (n x : Nat) : ofLe (le n x) = x % 256 ^ n := by
  induction n generalizing x with
  | zero => rw [pow_zero, Nat.mod_one]; rfl
  | succ n ih =>
    rw [le, ofLe, ih, BitVec.toNat_ofNat, pow_succ' 256 n, Nat.mod_mul]

/-- A field behind the first bytes of a record. -/
theorem fieldAt_append_right {a : List Byte} {offset : Nat} (h : a.length ≤ offset) (r : List Byte) (n : Nat) :
    fieldAt (a ++ r) offset n = fieldAt r (offset - a.length) n := by
  refine congrArg ofLe (List.map_congr_left fun i _ => ?_)
  rw [List.getD_append_right _ _ _ _ (h.trans (Nat.le_add_right offset i)), Nat.sub_add_comm h]

/-- The field with which a record begins. -/
theorem fieldAt_append_left {a : List Byte} {n : Nat} (h : a.length = n) (r : List Byte) :
    fieldAt (a ++ r) 0 n = ofLe a := by
  refine congrArg ofLe (List.ext_getElem (by rw [bytesAt, List.length_map, List.length_range, h]) fun i h1 h2 => ?_)
  simp [bytesAt, List.getElem?_append_left h2, h2]

theorem fieldAt_byte (b : Byte) (r : List Byte) : fieldAt (b :: r) 0 1 = b.toNat := fieldAt_append_left (a := [b]) rfl r

theorem fieldAt_behind (b : Byte) (r : List Byte) (offset n : Nat) :
    fieldAt (b :: r) (offset + 1) n = fieldAt r offset n := fieldAt_append_right (a := [b]) (Nat.le_add_left 1 offset) r n

theorem fieldAt_half (x : Half) (r : List Byte) : fieldAt (le 2 x.toNat ++ r) 0 2 = x.toNat := by
  rw [fieldAt_append_left (le_length 2 _), ofLe_le]
  exact Nat.mod_eq_of_lt x.isLt

theorem fieldAt_quad (x : Quad) (r : List Byte) : fieldAt (le 8 x.toNat ++ r) 0 8 = x.toNat := by
  rw [fieldAt_append_left (le_length 8 _), ofLe_le]
  exact Nat.mod_eq_of_lt x.isLt

/-! ### Frames (13.4, R100, R101, R198) -/

/-- R100, R198: bytes with their CRC-16 behind them are an intact frame. -/
theorem decodeFrame_intact (body : List Byte) : decodeFrame (body ++ le 2 (crc16 body).toNat)
    = intactFrame (body ++ le 2 (crc16 body).toNat) := by
  have crc : fieldAt (body ++ le 2 (crc16 body).toNat) body.length 2 = (crc16 body).toNat := by
    have read := fieldAt_half (crc16 body) []
    rw [List.append_nil] at read
    rw [fieldAt_append_right (Nat.le_refl _), Nat.sub_self, read]
  have length : (body ++ le 2 (crc16 body).toNat).length - 2 = body.length := by
    rw [List.length_append, le_length, Nat.add_sub_cancel]
  exact if_pos ⟨by simp, by rw [length, crc, List.take_left]⟩

/-- R101, R198: the bytes of a frame, whatever CRC is behind them, are read back field by field. -/
theorem intactFrame_body (f : Frame) (crc : Nat) : intactFrame (f.body ++ le 2 crc)
    = if WellFormed f.arrival then f.arrival else .frameMalformed := by
  cases f
  all_goals
    simp [intactFrame, Frame.body, Frame.arrival, rxEventAt, byteAt, halfAt, quadAt, fieldAt_byte, fieldAt_behind,
      fieldAt_append_right, fieldAt_half, fieldAt_quad, WellFormed, -BitVec.toNat_ofNat]

/-- Settles O60: the CRC is right (`decodeFrame_intact`), and each field stands where it is read (`intactFrame_body`). -/
theorem framesReadBack : Obligations.FramesReadBack := by
  intro f
  have read : decodeFrame f.bytes = if WellFormed f.arrival then f.arrival else .frameMalformed :=
    (decodeFrame_intact f.body).trans (intactFrame_body f _)
  exact ⟨fun h => read.trans (if_pos h), fun h => read.trans (if_neg (by simp [h]))⟩

end Sys2Proof.Machine
end

section
/-! PROOFS. Frames that arrive on the span link in UP: EVENT frames (O52), and the ACKs that take the oldest frames out of
the window (O53). -/

namespace Sys2Proof.Machine

/-! ### The fields of an EVENT frame (R101, R126) -/

/-- R101, R126: a field of an EVENT frame is out of range, in the words of O52. -/
def MalformedEvent (f : RxEventFields) : Prop :=
  4 < f.kind.toNat ∨ (f.kind = 2 ∧ 1 < f.param.toNat) ∨ (f.kind = 3 ∧ f.param = 0) ∨ 4 ≤ f.flags.toNat

/-- R126: the event kind by kind code; a parameter of 16 bits is in range for MARK, and for PULSE unless it is 0. -/
theorem eventKindOf_half (kind : Byte) (param : Half) : eventKindOf kind param.toNat =
    if kind = 0 then some .rise else if kind = 1 then some .fall
    else if kind = 2 then (if 1 < param.toNat then none else some (.state (if param = 0 then .low else .high)))
    else if kind = 3 then (if param = 0 then none else some (.pulse param))
    else if kind = 4 then some (.mark param) else none := by
  have zero : param = 0 ↔ param.toNat = 0 := BitVec.toNat_inj.symm
  have bound : param.toNat ≤ 65535 := Nat.le_of_lt_succ param.isLt
  have level : levelOf param.toNat = if param = 0 then .low else .high := if_congr zero.symm rfl rfl
  have range : 1 ≤ param.toNat ∧ param.toNat ≤ 65535 ↔ ¬ param = 0 := by rw [zero]; omega
  simp only [eventKindOf, level, range, if_pos bound, BitVec.ofNat_toNat, BitVec.setWidth_eq, ite_not]
  simp only [← Nat.not_lt, ite_not]

/-- R101, R126: a malformed EVENT frame has no kind. -/
theorem rxKind_malformed {f : RxEventFields} (h : MalformedEvent f) : rxKind f = none := by
  unfold rxKind
  rw [eventKindOf_half]
  rcases h with code | ⟨code, wide⟩ | ⟨code, zero⟩ | flags
  · have other : ∀ c : Byte, c.toNat ≤ 4 → f.kind ≠ c := fun c low heq => by rw [heq] at code; omega
    simp only [other 0 (by decide), other 1 (by decide), other 2 (by decide), other 3 (by decide),
      other 4 (by decide), if_false, ite_self]
  · simp [code, wide]
  · simp [code, zero]
  · exact if_neg (Nat.not_lt.2 flags)

/-- R126: the kind of every other EVENT frame, by the codes of 13.1. -/
theorem rxKind_wellFormed {f : RxEventFields} (h : ¬ MalformedEvent f) : rxKind f = some (
    if f.kind = 0 then .rise else if f.kind = 1 then .fall
    else if f.kind = 2 then .state (if f.param = 0 then .low else .high)
    else if f.kind = 3 then .pulse f.param else .mark f.param) := by
  simp only [MalformedEvent, not_or, not_and] at h
  obtain ⟨code, state, pulse, flags⟩ := h
  rw [rxKind, if_pos (Nat.not_le.1 flags), eventKindOf_half]
  by_cases h0 : f.kind = 0
  · simp [h0]
  by_cases h1 : f.kind = 1
  · simp [h1]
  by_cases h2 : f.kind = 2
  · simp [h2, state h2]
  by_cases h3 : f.kind = 3
  · simpa [h3] using pulse h3
  have h4 : f.kind = 4 := by bv_omega
  simp [h4]

theorem malformed_iff_rxKind (f : RxEventFields) : MalformedEvent f ↔ rxKind f = none :=
  ⟨rxKind_malformed, fun none => by_contra fun h => by rw [rxKind_wellFormed h] at none; cases none⟩

/-! ### EVENT frames (R126 to R128, R134) -/

section
variable {s : State} {f : RxEventFields} {kind : EventKind}

/-- R100, R104: an EVENT frame is heard and taken. -/
theorem exec_rxEvent {t : State} (h : s.resetHeld = false) (taken : takeEvent f s.frameHeard = t) :
    exec (.rxEvent f) s = .next t.settled :=
  congrArg Host.Outcome.next ((receive_eq h _).trans (congrArg State.settled taken))

/-- R127: the event is the newest of the intake, and the frame is passed. -/
theorem takeExpected_accepted (hopen : s.intakeOpen = true) (room : s.intake.length < 64) :
    takeExpected f kind s = { countLink (fun c => { c with eventsReceived := bump c.eventsReceived }) (onLink Link.pass s)
      with intake := s.intake ++ [rxEventOf f kind s.link] } := by
  have accepted : offerAnswer s = .accepted := (offerAnswer_accepted_iff s).2 ⟨hopen, room⟩
  simp only [takeExpected, accepted]
  rw [offerEvent_eq, offerEvent_intake]
  exact congrArg (fun intake => { countLink _ (onLink Link.pass s) with intake := intake }) (if_pos accepted)

theorem takeExpected_closed (hclosed : s.intakeOpen = false) : takeExpected f kind s
    = countLink (fun c => { c with rxClosed := bump c.rxClosed }) (onLink Link.pass s) := by
  simp only [takeExpected, (offerAnswer_closed_iff s).2 hclosed]

/-- R127: the frame is left for the peer to resend. -/
theorem takeExpected_full (hopen : s.intakeOpen = true) (full : 64 ≤ s.intake.length) : takeExpected f kind s
    = countLink (fun c => { c with rxRefused := bump c.rxRefused }) s := by
  simp only [takeExpected, (offerAnswer_full_iff s).2 ⟨hopen, full⟩]

theorem takeEvent_expected (hkind : rxKind f = some kind) (up : s.link.session = .up)
    (same : (s.link.expected - f.seq).toNat = 0) : takeEvent f s = takeExpected f kind s := by
  simp only [takeEvent, hkind, if_pos up]
  exact if_pos same

/-- R128: the ACK of a duplicate is made again. -/
theorem takeEvent_duplicate (hkind : rxKind f = some kind) (up : s.link.session = .up)
    (behind : 1 ≤ (s.link.expected - f.seq).toNat) (near : (s.link.expected - f.seq).toNat ≤ 128) :
    takeEvent f s = countLink (fun c => { c with duplicates := bump c.duplicates }) (onLink Link.makeAck s) := by
  simp only [takeEvent, hkind, if_pos up]
  exact (if_neg (Nat.ne_of_gt behind)).trans (if_pos near)

theorem takeEvent_outOfOrder (hkind : rxKind f = some kind) (up : s.link.session = .up)
    (ahead : 129 ≤ (s.link.expected - f.seq).toNat) :
    takeEvent f s = countLink (fun c => { c with outOfOrder := bump c.outOfOrder }) s := by
  simp only [takeEvent, hkind, if_pos up]
  exact (if_neg (by omega)).trans (if_neg (Nat.not_le.2 ahead))

theorem takeEvent_unexpected (hkind : rxKind f = some kind) (notUp : s.link.session ≠ .up) :
    takeEvent f s = countUnexpected s := by
  simp only [takeEvent, hkind, if_neg notUp]

theorem takeEvent_malformed (hkind : rxKind f = none) (up : s.link.session = .up) :
    takeEvent f s = countMalformed s := by
  simp only [takeEvent, hkind, up, decide_true, Bool.true_or, if_true]

/-- Log entry 15: outside UP the counter of a malformed EVENT frame is a free choice. -/
theorem takeEvent_malformed_notUp (hkind : rxKind f = none) (notUp : s.link.session ≠ .up) :
    takeEvent f s = countLink (fun c => if Config.malformedEventCountsOutsideUp
      then { c with rxMalformed := bump c.rxMalformed } else { c with rxUnexpected := bump c.rxUnexpected }) s := by
  simp only [takeEvent, hkind, notUp, decide_false, Bool.false_or]
  cases Config.malformedEventCountsOutsideUp <;> rfl

end

/-- Settles O52: a frame has a kind unless it is malformed (`malformed_iff_rxKind`), and is taken by its distance behind
the expected sequence and the intake's answer. -/
theorem eventFramesAreTakenOrCounted : Obligations.EventFramesAreTakenOrCounted := by
  refine ⟨fun s f kind h hkind => ?_, fun s f h => ?_⟩
  · intro u l behind passed event up
    exact ⟨fun hup same hopen room => exec_rxEvent h ((takeEvent_expected (s := u) hkind hup same).trans
        (takeExpected_accepted (s := u) hopen room)),
      fun hup same hclosed => exec_rxEvent h ((takeEvent_expected (s := u) hkind hup same).trans
        (takeExpected_closed (s := u) hclosed)),
      fun hup same hopen full => exec_rxEvent h ((takeEvent_expected (s := u) hkind hup same).trans
        (takeExpected_full (s := u) hopen full)),
      fun hup hbehind near => exec_rxEvent h (takeEvent_duplicate (s := u) hkind hup hbehind near),
      fun hup ahead => exec_rxEvent h (takeEvent_outOfOrder (s := u) hkind hup ahead),
      fun notUp => exec_rxEvent h (takeEvent_unexpected (s := u) hkind notUp)⟩
  · intro malformed u
    exact ⟨malformed_iff_rxKind f, rxKind_wellFormed,
      fun bad hup => exec_rxEvent h (takeEvent_malformed (s := u) (rxKind_malformed bad) hup),
      fun bad notUp => exec_rxEvent h (takeEvent_malformed_notUp (s := u) (rxKind_malformed bad) notUp)⟩

/-! ### ACK frames (R121, R123, R124) -/

/-- R121: frames as they enter the window together, with consecutive sequence numbers from `seq`, in the words of O53. -/
def windowFramesFrom (seq : Byte) (es : List TxEvent) : List WindowFrame :=
  (List.range es.length).zipWith (fun i e => windowFrameOf (seq + BitVec.ofNat 8 i) e) es

theorem windowFramesFrom_cons (seq : Byte) (e : TxEvent) (es : List TxEvent) :
    windowFramesFrom seq (e :: es) = windowFrameOf seq e :: windowFramesFrom (seq + 1) es := by
  have next : ∀ i : Nat, seq + BitVec.ofNat 8 (i + 1) = seq + 1 + BitVec.ofNat 8 i := fun i => by bv_omega
  have first : seq + BitVec.ofNat 8 0 = seq := BitVec.add_zero seq
  simp only [windowFramesFrom, List.length_cons, List.range_succ_eq_map, List.zipWith_cons_cons, List.zipWith_map_left,
    Nat.succ_eq_add_one, first, next]

/-- R121: the frames that enter the window are the oldest that wait, as many as there is room for. -/
theorem enterWindow_take (room : Nat) (l : Link) : enterWindow room l = { l with
    window := l.window ++ windowFramesFrom l.nextSeq (l.waiting.take room)
    waiting := l.waiting.drop (l.waiting.take room).length
    nextSeq := l.nextSeq + BitVec.ofNat 8 (l.waiting.take room).length } := by
  induction room generalizing l with
  | zero => simp [enterWindow, windowFramesFrom]
  | succ room ih =>
    by_cases hw : l.waiting = []
    · have noneEnters : l.waiting.take (room + 1) = [] := by rw [hw]; rfl
      rw [enterWindow_none hw, noneEnters]
      simp [windowFramesFrom]
    · obtain ⟨e, rest, hw⟩ := List.exists_cons_of_ne_nil hw
      have next : ∀ n : Nat, l.nextSeq + 1 + BitVec.ofNat 8 n = l.nextSeq + BitVec.ofNat 8 (n + 1) := fun n => by bv_omega
      simp only [enterWindow, hw, ih, next, List.take_succ_cons, List.length_cons, List.drop_succ_cons,
        windowFramesFrom_cons, List.append_assoc, List.singleton_append]

/-- R123, R124: what an ACK of `d` frames does to the window, the waiting frames and the ack timer. -/
theorem Link.acknowledge_eq (d : Nat) (l : Link) :
    let entering := l.waiting.take (16 - (l.window.length - d))
    let window := l.window.drop d ++ windowFramesFrom l.nextSeq entering
    l.acknowledge d = { l with
      window := window, waiting := l.waiting.drop entering.length
      nextSeq := l.nextSeq + BitVec.ofNat 8 entering.length
      ackTimer := if window = [] then none else some 0 } := by
  intro entering window
  have filled : Link.fillWindow { l with window := l.window.drop d } = { l with
      window := window, waiting := l.waiting.drop entering.length
      nextSeq := l.nextSeq + BitVec.ofNat 8 entering.length } := by
    rw [Link.fillWindow, List.length_drop, enterWindow_take]
    rfl
  simp only [Link.acknowledge, filled, List.isEmpty_iff]

section
variable {s : State} {value : Byte}

/-- R100, R104: an ACK is heard and taken. -/
theorem exec_rxAck {t : State} (h : s.resetHeld = false) (taken : takeAck value s.frameHeard = t) :
    exec (.rxAck value) s = .next t.settled :=
  congrArg Host.Outcome.next ((receive_eq h _).trans (congrArg State.settled taken))

theorem takeAck_nothing (up : s.link.session = .up) (same : (value - s.link.oldestSeq).toNat = 0) :
    takeAck value s = s :=
  (if_pos up).trans (if_pos same)

theorem takeAck_removes (up : s.link.session = .up) (ahead : 1 ≤ (value - s.link.oldestSeq).toNat)
    (inWindow : (value - s.link.oldestSeq).toNat ≤ s.link.window.length) :
    takeAck value s = onLink (Link.acknowledge (value - s.link.oldestSeq).toNat) s :=
  (if_pos up).trans ((if_neg (Nat.ne_of_gt ahead)).trans (if_pos inWindow))

theorem takeAck_ignored (up : s.link.session = .up) (beyond : s.link.window.length < (value - s.link.oldestSeq).toNat) :
    takeAck value s = countLink (fun c => { c with acksIgnored := bump c.acksIgnored }) s :=
  (if_pos up).trans ((if_neg (Nat.ne_of_gt (Nat.zero_lt_of_lt beyond))).trans (if_neg (Nat.not_le.2 beyond)))

theorem takeAck_unexpected (notUp : s.link.session ≠ .up) : takeAck value s = countUnexpected s := if_neg notUp

end

/-- Settles O53: an ACK by its distance ahead of the oldest frame; `Link.acknowledge_eq` says what the frames that leave
let in. -/
theorem ackRemovesOldestFrames : Obligations.AckRemovesOldestFrames := by
  intro s value h u l oldest d entering entered window counted
  exact ⟨fun up same => exec_rxAck h (takeAck_nothing (s := u) up same),
    fun up ahead inWindow => exec_rxAck h ((takeAck_removes (s := u) up ahead inWindow).trans
      (congrArg (fun k => onLink (fun _ => k) u) (Link.acknowledge_eq d u.link))),
    fun up beyond => exec_rxAck h (takeAck_ignored (s := u) up beyond),
    fun notUp => exec_rxAck h (takeAck_unexpected (s := u) notUp)⟩

end Sys2Proof.Machine
end

section
/-! PROOFS. The rings in service and the completion reservation (O5), the host memory the part writes (O9), and that every
step answers a next state and keeps the queue (O2). -/

namespace Sys2Proof.Machine

/-! ### A ring in service (R143, R145, R148 to R151) -/

/-- R143: how far an index of a ring is ahead of another. -/
theorem ringDistance_eq {size i j : Nat} (hi : i < size) (hj : j < size) :
    (i + size - j) % size = if j ≤ i then i - j else i + size - j := by
  split
  · rw [show i + size - j = (i - j) + size by omega, Nat.add_mod_right, Nat.mod_eq_of_lt (by omega)]
  · rw [Nat.mod_eq_of_lt (by omega)]

theorem ringNext_eq {size i : Nat} (hi : i < size) : (i + 1) % size = if i + 1 = size then 0 else i + 1 := by
  split
  · rename_i h
    rw [h, Nat.mod_self]
  · rw [Nat.mod_eq_of_lt (by omega)]

/-- R143: a slot assigned behind the pending writes keeps them one after another. -/
theorem slotsFrom_append {size : Nat} {ws : List RingWrite} {w : RingWrite} : ∀ {next : Nat}, next < size →
    slotsFrom size next ws → w.slot = (next + ws.length) % size → slotsFrom size next (ws ++ [w]) := by
  induction ws with
  | nil => exact fun hn _ hw => ⟨by simpa [Nat.mod_eq_of_lt hn] using hw, trivial⟩
  | cons v vs ih =>
    intro next hn hs hw
    refine ⟨hs.1, ih (Nat.mod_lt _ (by omega)) hs.2 ?_⟩
    rw [hw, Nat.mod_add_mod, List.length_cons]
    congr 1
    omega

namespace OutRing.Sound

theorem unconsumed_lt {r : OutRing} (h : r.Sound) : r.unconsumed < r.size :=
  Nat.mod_lt _ (by have := h.size; omega)

/-- R143: the fill index is as far behind the pending writes as the producer index is before them. -/
theorem fill_eq {r : OutRing} (h : r.Sound) : r.fill = (r.producer + r.writes.length) % r.size := by
  have hp := h.producer
  have hf := h.fill
  have hc := h.consumer
  have count := h.count
  unfold OutRing.published OutRing.unconsumed at count
  rw [ringDistance_eq hp hc, ringDistance_eq hf hc] at count
  rcases Nat.lt_or_ge (r.producer + r.writes.length) r.size with hlt | hge
  · rw [Nat.mod_eq_of_lt hlt]
    split at count <;> split at count <;> omega
  · rw [Nat.mod_eq_sub_mod hge, Nat.mod_eq_of_lt] <;> split at count <;> split at count <;> omega

/-- R143: a ring with a free slot stays in service when a record is assigned to it. -/
theorem assigned {r : OutRing} (h : r.Sound) (free : r.unconsumed + 1 ≤ r.size - 1) (record : HostRecord) :
    (r.assign record).Sound := by
  have unconsumed : (r.assign record).unconsumed = r.unconsumed + 1 :=
    h.assign (by unfold OutRing.free; omega) record
  exact {
    size := h.size, producer := h.producer, consumer := h.consumer
    fill := Nat.mod_lt _ (by have := h.size; omega)
    slots := slotsFrom_append h.producer h.slots h.fill_eq
    count := by
      rw [unconsumed, ← h.count]
      simp only [OutRing.assign, OutRing.published, List.length_append, List.length_singleton]
      omega }

theorem assigned_unconsumed {r : OutRing} (h : r.Sound) (free : r.unconsumed + 1 ≤ r.size - 1) (record : HostRecord) :
    (r.assign record).unconsumed = r.unconsumed + 1 := h.assign (by unfold OutRing.free; omega) record

/-- R150: the loss count has no part in a ring's indices. -/
theorem with_loss {r : OutRing} (h : r.Sound) (loss : Counter) : ({ r with loss := loss } : OutRing).Sound :=
  ⟨h.size, h.producer, h.consumer, h.fill, h.slots, h.count⟩

/-- R150, R151: a ring with two free slots stays in service when a record, and a LOSS record before it, are posted. -/
theorem posted {r : OutRing} (h : r.Sound) (free : 2 ≤ r.free) (record : HostRecord) : (r.post record).Sound := by
  unfold OutRing.free at free
  refine iteInduction (fun _ => h.assigned (by omega) record) fun _ => ?_
  have first := h.assigned (by omega) (.loss r.loss)
  refine (first.with_loss 0).assigned ?_ record
  have := h.assigned_unconsumed (by omega) (.loss r.loss)
  change (r.assign (.loss r.loss)).unconsumed + 1 ≤ r.size - 1
  omega

/-- R143, R146: a ring stays in service when the oldest of its pending writes completes. -/
theorem written {r : OutRing} (h : r.Sound) {w : RingWrite} {rest : List RingWrite} (hw : r.writes = w :: rest) :
    (r.written w rest).Sound := by
  have hp := h.producer
  have hc := h.consumer
  have slots := h.slots
  have count := h.count
  have bound := h.unconsumed_lt
  rw [hw] at slots count
  obtain ⟨hslot, later⟩ := slots
  refine { size := h.size, producer := Nat.mod_lt _ (by have := h.size; omega), consumer := hc, fill := h.fill
           slots := by simpa only [OutRing.written, hslot] using later, count := ?_ }
  rw [List.length_cons] at count
  change ((w.slot + 1) % r.size + r.size - r.consumer) % r.size + rest.length = r.unconsumed
  unfold OutRing.published at count
  rw [ringDistance_eq hp hc] at count
  rw [hslot, ringNext_eq hp]
  split
  · rw [ringDistance_eq (by omega) hc]
    split <;> split at count <;> omega
  · rw [ringDistance_eq (by omega) hc]
    split <;> split at count <;> omega

theorem released_count {r : OutRing} (h : r.Sound) {i : Nat} (hi : r.releases i = true) :
    ({ r with consumer := i } : OutRing).published + r.writes.length = ({ r with consumer := i } : OutRing).unconsumed
      ∧ ({ r with consumer := i } : OutRing).unconsumed ≤ r.unconsumed := by
  have hp := h.producer
  have hf := h.fill
  have hc := h.consumer
  have count := h.count
  simp only [OutRing.releases, decide_eq_true_eq] at hi
  obtain ⟨hsize, hahead⟩ := hi
  unfold OutRing.published OutRing.unconsumed at *
  rw [ringDistance_eq hp hc, ringDistance_eq hf hc] at count
  rw [ringDistance_eq hsize hc, ringDistance_eq hp hc] at hahead
  simp only [ringDistance_eq hp hsize, ringDistance_eq hf hsize, ringDistance_eq hf hc]
  grind

/-- R143, R145: a ring stays in service when its consumer index moves on over published records. -/
theorem released {r : OutRing} (h : r.Sound) {i : Nat} (hi : r.releases i = true) :
    ({ r with consumer := i } : OutRing).Sound where
  size := h.size
  producer := h.producer
  consumer := by
    simp only [OutRing.releases, decide_eq_true_eq] at hi
    exact hi.1
  fill := h.fill
  slots := h.slots
  count := (h.released_count hi).1

theorem released_unconsumed {r : OutRing} (h : r.Sound) {i : Nat} (hi : r.releases i = true) :
    ({ r with consumer := i } : OutRing).unconsumed ≤ r.unconsumed := (h.released_count hi).2

end OutRing.Sound

/-! ### The rings, the reservation and host memory

`RingFrame` is what the promises about rings and host memory speak of beside the rings, the deferred set and the
session; `Ledger n` is what they say of those in a part that is not HALTED, with room kept for `n` completions more than
the deferred commands will bring. `KeepsRings s t` says of an operation that takes no command and completes no write
that it leaves the frame and keeps every ledger. -/

/-- What the promises about rings and host memory speak of, beside rings, deferred set and session. -/
structure RingFrame where
  part : PartState
  starting : Option StartStep
  status : Option Quad
  hostMem : List Host.Cell
  indexWrites : List IndexWrite
  cmdRead : Bool
  executing : Option OfferSet
  pending : List Instr

def State.ringFrame (s : State) : RingFrame :=
  ⟨s.part, s.starting, s.geom.map Geometry.status, s.hostMem, s.indexWrites, s.cmdRead, s.executing, s.pending⟩

/-- All that the promises about rings and host memory speak of, but for the session. -/
def State.ringBooks (s : State) : RingFrame × Option Geometry × List Deferred := (s.ringFrame, s.geom, s.deferred)

/-- R143, R148: the rings are in service, and the completion ring has room for `n` completions. -/
def State.Room (n : Nat) (s : State) : Prop :=
  ∀ g, s.geom = some g → g.Sound ∧ g.compl.unconsumed + n ≤ g.compl.size - 1

/-- R148, R158: the completion ring has room for the deferred commands in flight, one of each kind, and for `n`
completions more. -/
structure State.Tally (n : Nat) (s : State) : Prop where
  room : s.Room (s.deferred.length + n)
  nodup : (deferredKinds s).Nodup

/-- R148, R158, R171: the tally, with a LINK_OPEN in flight during a call alone. -/
structure State.Ledger (n : Nat) (s : State) : Prop extends s.Tally n where
  call : DeferredKind.linkOpen ∈ deferredKinds s → s.link.session = .calling ∨ s.link.session = .aligning

theorem State.Room.mono {s : State} {m n : Nat} (h : s.Room n) (hm : m ≤ n) : s.Room m := fun g hg => by
  obtain ⟨sound, room⟩ := h g hg
  exact ⟨sound, by omega⟩

theorem State.Ledger.mono {s : State} {m n : Nat} (h : s.Ledger n) (hm : m ≤ n) : s.Ledger m :=
  ⟨⟨h.room.mono (by omega), h.nodup⟩, h.call⟩

/-- R149: a completion handed over takes one of the places kept. -/
theorem State.Room.handCompletion {s : State} {n : Nat} (h : s.Room (n + 1)) (kind : Byte) (tag : Word) (st : Status)
    (w1 w2 w3 : Word) : (handCompletion kind tag st w1 w2 w3 s).Room n := by
  intro g' hg'
  rcases hg : s.geom with _ | g
  · rw [handCompletion_complete] at hg'
    simp [hg] at hg'
  · rw [handCompletion_geom hg, Option.some.injEq] at hg'
    subst hg'
    obtain ⟨sound, room⟩ := h g hg
    have free : g.compl.unconsumed + 1 ≤ g.compl.size - 1 := by omega
    refine ⟨{ sound with compl := sound.compl.assigned free _ }, ?_⟩
    dsimp only
    rw [sound.compl.assigned_unconsumed free]
    change g.compl.unconsumed + 1 + n ≤ g.compl.size - 1
    omega

theorem handCompletion_deferred (kind : Byte) (tag : Word) (st : Status) (w1 w2 w3 : Word) (s : State) :
    (handCompletion kind tag st w1 w2 w3 s).deferred = s.deferred := by rw [handCompletion_eq]

theorem handCompletion_ringFrame (kind : Byte) (tag : Word) (st : Status) (w1 w2 w3 : Word) (s : State) :
    (handCompletion kind tag st w1 w2 w3 s).ringFrame = s.ringFrame := by
  rw [handCompletion_complete]
  unfold State.ringFrame
  cases s.geom <;> rfl

theorem State.Ledger.handCompletion {s : State} {n : Nat} (h : s.Ledger (n + 1)) (kind : Byte) (tag : Word)
    (st : Status) (w1 w2 w3 : Word) : (handCompletion kind tag st w1 w2 w3 s).Ledger n := by
  have kept := handCompletion_deferred kind tag st w1 w2 w3 s
  refine ⟨⟨?_, ?_⟩, ?_⟩
  · rw [kept]
    exact State.Room.handCompletion h.room kind tag st w1 w2 w3
  · unfold deferredKinds
    rw [kept]
    exact h.nodup
  · unfold deferredKinds
    rw [kept, handCompletion_link]
    exact h.call

/-! #### The deferred set (R158, R174, R179) -/

theorem leaveDeferred_kinds (k : DeferredKind) (ds : List Deferred) :
    (leaveDeferred k ds).map (fun d => d.job.kind) = (ds.map fun d => d.job.kind).filter (· != k) := by
  simp only [leaveDeferred, List.map_map, List.filter_map]
  exact List.map_congr_left fun d _ => Deferred.strike_kind k d

/-- R158: the kinds in flight after a command of the kind `k` has completed. -/
theorem finishDeferred_kinds (k : DeferredKind) (st : Status) (w1 w2 w3 : Word) (s : State) :
    deferredKinds (finishDeferred k st w1 w2 w3 s) = (deferredKinds s).filter (· != k) := by
  rcases h : findDeferred k s with _ | d
  · rw [finishDeferred_none (by simp [inFlight, h])]
    refine (List.filter_eq_self.2 fun j hj => ?_).symm
    obtain ⟨d, hd, rfl⟩ := List.mem_map.1 hj
    simpa using List.find?_eq_none.1 h d hd
  · rw [finishDeferred_some h]
    exact leaveDeferred_kinds k s.deferred

theorem finishDeferred_ringFrame (k : DeferredKind) (st : Status) (w1 w2 w3 : Word) (s : State) :
    (finishDeferred k st w1 w2 w3 s).ringFrame = s.ringFrame := by
  unfold finishDeferred
  split
  · rfl
  · exact (handCompletion_ringFrame ..).trans rfl

/-- R158: a deferred command in flight takes one place of the set. -/
theorem leaveDeferred_length {k : DeferredKind} {ds : List Deferred} (nodup : (ds.map fun d => d.job.kind).Nodup)
    (hk : k ∈ ds.map fun d => d.job.kind) : (leaveDeferred k ds).length + 1 = ds.length := by
  have length := congrArg List.length (leaveDeferred_kinds k ds)
  rw [← nodup.erase_eq_filter, List.length_erase_of_mem hk, List.length_map, List.length_map] at length
  have := List.length_pos_of_mem hk
  rw [List.length_map] at this
  omega

/-- R148, R158: a deferred command's completion takes the place kept for it. -/
theorem State.Tally.finishDeferred {s : State} {n : Nat} (h : s.Tally n) (k : DeferredKind) (st : Status)
    (w1 w2 w3 : Word) : (finishDeferred k st w1 w2 w3 s).Tally n := by
  refine ⟨?_, finishDeferred_kinds k st w1 w2 w3 s ▸ h.nodup.filter _⟩
  rcases hd : findDeferred k s with _ | d
  · rw [finishDeferred_none (by simp [inFlight, hd])]
    exact h.room
  · have mem : k ∈ deferredKinds s :=
      List.mem_map.2 ⟨d, List.mem_of_find?_eq_some hd, findDeferred_kind hd⟩
    have length := leaveDeferred_length h.nodup mem
    unfold Machine.finishDeferred
    rw [hd]
    dsimp only
    rw [handCompletion_deferred]
    refine State.Room.handCompletion (s := { s with deferred := leaveDeferred k s.deferred }) ?_ _ _ _ _ _ _
    exact State.Room.mono (m := (leaveDeferred k s.deferred).length + n + 1) h.room (by omega)

/-! #### What keeps the rings -/

/-- An operation that takes no command and completes no write leaves the frame and keeps the ledger. -/
structure KeepsRings (s t : State) : Prop where
  frame : t.ringFrame = s.ringFrame
  kinds : (deferredKinds t).Sublist (deferredKinds s)
  ledger : ∀ n, s.Ledger n → t.Ledger n

namespace KeepsRings

theorem refl (s : State) : KeepsRings s s := ⟨rfl, .refl _, fun _ => id⟩

theorem trans {s t u : State} (h : KeepsRings s t) (k : KeepsRings t u) : KeepsRings s u :=
  ⟨k.frame.trans h.frame, k.kinds.trans h.kinds, fun n hs => k.ledger n (h.ledger n hs)⟩

/-- An operation on nothing that the promises speak of. -/
theorem same {s t : State} (books : t.ringBooks = s.ringBooks) (session : t.link.session = s.link.session) :
    KeepsRings s t := by
  simp only [State.ringBooks, Prod.mk.injEq] at books
  obtain ⟨frame, geom, deferred⟩ := books
  have kinds : deferredKinds t = deferredKinds s := congrArg (List.map fun d : Deferred => d.job.kind) deferred
  refine ⟨frame, kinds ▸ .refl _, fun n h => ⟨⟨?_, kinds ▸ h.nodup⟩, ?_⟩⟩
  · intro g hg
    rw [deferred]
    exact h.room g (geom ▸ hg)
  · rw [kinds, session]
    exact h.call

/-- An operation that keeps the rings, after one on nothing that the promises speak of. -/
theorem after {s t u : State} (k : KeepsRings t u) (books : t.ringBooks = s.ringBooks)
    (session : t.link.session = s.link.session) : KeepsRings s u := (same books session).trans k

theorem ite {s t u : State} {c : Prop} [Decidable c] (ht : c → KeepsRings s t) (hu : ¬ c → KeepsRings s u) :
    KeepsRings s (if c then t else u) := by
  split
  · exact ht ‹_›
  · exact hu ‹_›

end KeepsRings

theorem finishDeferred_keepsRings (k : DeferredKind) (st : Status) (w1 w2 w3 : Word) (s : State) :
    KeepsRings s (finishDeferred k st w1 w2 w3 s) where
  frame := finishDeferred_ringFrame ..
  kinds := finishDeferred_kinds k st w1 w2 w3 s ▸ List.filter_sublist
  ledger := fun n h => ⟨h.toTally.finishDeferred k st w1 w2 w3, by
    rw [finishDeferred_kinds, finishDeferred_link]
    exact fun hm => h.call (List.mem_of_mem_filter hm)⟩

theorem settle_keepsRings (s : State) : KeepsRings s (settle s) := by
  have quiesce : ∀ u, KeepsRings u (settleQuiesce u) := by
    intro u
    unfold settleQuiesce
    split
    · exact finishDeferred_keepsRings ..
    · exact .refl u
  have fence : ∀ u, KeepsRings u (settleFence u) := by
    intro u
    unfold settleFence
    split
    · exact finishDeferred_keepsRings ..
    · exact .refl u
  exact .ite (fun _ => (quiesce s).trans (fence _)) fun _ => .refl s

theorem finishQuiesce_keepsRings (st : Status) (s : State) : KeepsRings s (finishQuiesce st s) := by
  unfold finishQuiesce
  split
  · exact finishDeferred_keepsRings ..
  · exact .refl s

/-- R117, R118: a move of the session out of a call ends the LINK_OPEN in flight with it. -/
theorem finishLinkOpen_keepsRings {s u : State} (h : u.ringBooks = s.ringBooks) (st : Status) :
    KeepsRings s (finishLinkOpen st u) := by
  simp only [State.ringBooks, Prod.mk.injEq] at h
  obtain ⟨frame, geom, deferred⟩ := h
  have kinds : deferredKinds u = deferredKinds s := congrArg (List.map fun d : Deferred => d.job.kind) deferred
  refine ⟨(finishDeferred_ringFrame ..).trans frame, ?_, fun n h => ⟨?_, fun hm => ?_⟩⟩
  · rw [← kinds]
    exact (finishDeferred_keepsRings ..).kinds
  · refine State.Tally.finishDeferred ⟨fun g hg => ?_, kinds ▸ h.nodup⟩ ..
    rw [deferred]
    exact h.room g (geom ▸ hg)
  · unfold finishLinkOpen at hm
    rw [finishDeferred_kinds] at hm
    simp at hm

theorem enterFailed_keepsRings (r : Reason) (s : State) : KeepsRings s (enterFailed r s) := by
  refine finishLinkOpen_keepsRings ?_ _
  rw [postLinkNotice_eq]
  rfl

theorem enterClosed_keepsRings (r : Reason) (sendClose : Bool) (s : State) :
    KeepsRings s (enterClosed r sendClose s) := by
  refine finishLinkOpen_keepsRings ?_ _
  rw [postLinkNotice_eq]
  rfl

/-! #### Records, raises and offers -/

theorem takeRaise_keepsRings (r : Raise) (s : State) : KeepsRings s (takeRaise r s) := by
  rw [takeRaise_eq]
  exact .same rfl rfl

theorem Geometry.Sound.setEvent {g : Geometry} (h : g.Sound) {r : OutRing} (hr : r.size = 0 ∨ r.Sound)
    (ring : Fin 4) : (g.setEvent ring r).Sound where
  producer := h.producer
  consumer := h.consumer
  compl := h.compl
  event := fun k => by
    by_cases hk : ring.val = k.val
    · simpa [Geometry.setEvent, hk] using hr
    · simpa [Geometry.setEvent, Vector.getElem_set_ne _ _ hk] using h.event k

/-- R150: an event ring is replaced by one in service. -/
theorem setEvent_keepsRings {s : State} {g : Geometry} (hg : s.geom = some g) (ring : Fin 4) {r : OutRing}
    (hr : g.Sound → r.size = 0 ∨ r.Sound) (c : RingCounters) :
    KeepsRings s { s with geom := some (g.setEvent ring r), ringCounters := c } where
  frame := by simp [State.ringFrame, hg, Geometry.setEvent]
  kinds := .refl _
  ledger := fun n h => ⟨⟨fun g' hg' => by
    cases hg'
    obtain ⟨sound, room⟩ := h.room g hg
    exact ⟨sound.setEvent (hr sound) ring, room⟩, h.nodup⟩, h.call⟩

/-- R150, R151: a record is posted with two slots free, else the loss count counts it. -/
theorem takeRecord_keepsRings (ring : Fin 4) (record : HostRecord) (s : State) :
    KeepsRings s (takeRecord ring record s) := by
  unfold takeRecord
  split
  · exact .refl s
  · rename_i g hg
    refine .ite (fun _ => .refl s) fun present => .ite (fun free => ?_) fun _ => ?_
    · exact setEvent_keepsRings hg ring (fun sound => .inr (((sound.event ring).resolve_left present).posted free record))
        s.ringCounters
    · have lost := setEvent_keepsRings hg ring
        (fun sound => .inr (((sound.event ring).resolve_left present).with_loss (bump g.event[ring].loss)))
        { s.ringCounters with lost := s.ringCounters.lost.set ring (bump s.ringCounters.lost[ring]) }
      exact .ite (fun _ => lost.trans (.same rfl rfl)) fun _ => lost

theorem eventRecordTake_keepsRings (poster : Poster) (s : State) : KeepsRings s (eventRecordTake poster s) := by
  refine .ite (fun _ => ?_) fun _ => .refl s
  cases poster with
  | release ring =>
    dsimp only
    split
    · exact .refl s
    · exact .ite (fun _ => ((takeRecord_keepsRings ring _ _).trans (settle_keepsRings _)).after rfl rfl)
        fun _ => .refl s
  | faultUnit =>
    dsimp only
    split
    · exact (takeRecord_keepsRings _ _ _).after rfl rfl
    · exact .refl s
  | linkController =>
    dsimp only
    split
    · exact (takeRecord_keepsRings _ _ _).after rfl rfl
    · exact .refl s

theorem faultRaise_keepsRings (index : Nat) (s : State) : KeepsRings s (faultRaise index s) := by
  unfold faultRaise
  split
  · exact .refl s
  · exact (takeRaise_keepsRings _ _).after rfl rfl

theorem offerEvent_keepsRings (e : Event) (s : State) : KeepsRings s (offerEvent e s) := by
  rw [offerEvent_eq]
  exact .same rfl rfl

theorem OnlyOfferFields.keepsRings {s t : State} (h : OnlyOfferFields s t) : KeepsRings s t := by
  unfold OnlyOfferFields at h
  rw [h]
  exact .same rfl rfl

theorem offerEdge_keepsRings (n : Fin 16) (l : InputLine) (e : Event) (level : Level) (window : Option Nat)
    (s : State) : KeepsRings s (offerEdge n l e level window s) := by
  unfold offerEdge
  split
  · exact (offerEvent_keepsRings e s).trans (.same rfl rfl)
  · exact .same rfl rfl
  · exact .same rfl rfl

theorem acceptChange_keepsRings (n : Fin 16) (l : InputLine) (stamp : Nat) (s : State) :
    KeepsRings s (acceptChange n l stamp s) :=
  .ite (fun _ => .ite (fun _ => .same rfl rfl) fun _ => offerEdge_keepsRings ..) fun _ => .same rfl rfl

theorem rawChange_keepsRings (n : Fin 16) (level : Level) (s : State) : KeepsRings s (rawChange n level s) := by
  refine .ite (fun _ => .refl s) fun _ => .ite (fun _ => ?_) fun _ => .same rfl rfl
  split
  · exact .same rfl rfl
  · exact .ite (fun _ => acceptChange_keepsRings ..) fun _ => .same rfl rfl

theorem filterAccept_keepsRings (n : Fin 16) (s : State) : KeepsRings s (filterAccept n s) := by
  unfold filterAccept
  dsimp only
  split
  · exact .refl s
  · exact .ite (fun _ => acceptChange_keepsRings ..) fun _ => .refl s

theorem spacingEnd_keepsRings (n : Fin 16) (s : State) : KeepsRings s (spacingEnd n s) := by
  unfold spacingEnd
  dsimp only
  split
  · exact .refl s
  · refine .ite (fun _ => ?_) fun _ => .refl s
    split
    · exact .same rfl rfl
    · exact offerEdge_keepsRings ..

theorem announceLine_keepsRings (n : Fin 16) (s : State) : KeepsRings s (announceLine n s) := by
  refine .ite (fun _ => .refl s) fun _ => ?_
  split
  · exact (offerState_only n s).keepsRings
  · exact .same rfl rfl
  · exact .same rfl rfl

/-- R8, R81: the offers of an announce keep the rings. -/
theorem announceNext_keepsRings (k : Nat) : ∀ s, KeepsRings s (announceNext k s) := by
  induction k with
  | zero => exact .refl
  | succ k ih =>
    intro s
    simp only [announceNext]
    split
    · exact .refl s
    · rename_i n rest _
      exact ((announceLine_keepsRings n { s with announcing := rest }).trans (ih _)).after rfl rfl

/-! #### The Router, the Release Unit and the Output Unit -/

theorem enqueue_session (e : TxEvent) (l : Link) : (l.enqueue e).session = l.session := by
  simp only [Link.enqueue, Link.fillWindow]
  rw [enterWindow_eq]

theorem forward_session (e : Event) (s : State) : (forward e s).link.session = s.link.session := by
  unfold forward
  split
  · unfold markForwarded
    split <;> exact enqueue_session _ _
  · rfl
  · rfl

theorem Deciding.reach_session (d : Deciding) (pause : Option DecisionStage) {run : State → State} {s : State}
    (h : (run s).link.session = s.link.session) : (d.reach pause run s).link.session = s.link.session := by
  unfold Deciding.reach
  split
  · rfl
  · exact h

theorem decideForward_session (pause : Option DecisionStage) (d : Deciding) (s : State) :
    (decideForward pause d s).link.session = s.link.session := by
  have forwarded : (forwardPart d.config d.event s).link.session = s.link.session := by
    unfold forwardPart
    split
    · exact forward_session _ s
    · rfl
  exact (Deciding.reach_session _ _ (congrArg Link.session (decideLocal_link _ _ _))).trans forwarded

theorem decideReading_session (pause : Option DecisionStage) (d : Deciding) (s : State) :
    (decideReading pause d s).link.session = s.link.session := by
  unfold decideReading
  dsimp only
  split
  · rfl
  · split
    · split
      · rfl
      · exact (Deciding.reach_session _ _ (decideForward_session _ _ _)).trans rfl
    · rfl

theorem OnlyDecisionFields.keepsRings {s t : State} (h : OnlyDecisionFields s t)
    (session : t.link.session = s.link.session) : KeepsRings s t := by
  refine .same ?_ session
  unfold OnlyDecisionFields at h
  rw [h]
  rfl

theorem decideEvent_keepsRings (pause : Option DecisionStage) (e : Event) (s : State) :
    KeepsRings s (decideEvent pause e s) := by
  refine (decideEvent_only pause e s).keepsRings ?_
  unfold decideEvent
  split
  · rfl
  · exact Deciding.reach_session _ _ (decideReading_session _ _ s)

theorem resumeDecision_keepsRings (pause : Option DecisionStage) (d : Deciding) (s : State) :
    KeepsRings s (resumeDecision pause d s) := by
  refine (resumeDecision_only pause d s).keepsRings ?_
  unfold resumeDecision
  split
  · exact decideReading_session _ _ s
  · exact decideForward_session _ _ s
  · exact congrArg Link.session (decideLocal_link _ _ s)

theorem routerTake_keepsRings (pause : Option DecisionStage) (s : State) : KeepsRings s (routerTake pause s) := by
  refine .ite (fun _ => ?_) fun _ => .refl s
  split
  · exact ((resumeDecision_keepsRings pause _ { s with deciding := none }).trans (settle_keepsRings _)).after rfl rfl
  · exact .refl s
  · rename_i e rest _ _
    exact ((decideEvent_keepsRings pause e { s with intake := rest }).trans (settle_keepsRings _)).after rfl rfl

theorem holdRelease_keepsRings (s : State) : KeepsRings s (holdRelease s) := by
  refine .ite (fun _ => ?_) fun _ => .refl s
  split
  · exact .refl s
  · exact .ite (fun _ => .same rfl rfl) fun _ => .refl s

theorem handoverTake_keepsRings (s : State) : KeepsRings s (handoverTake s) := by
  refine .ite (fun _ => ?_) fun _ => .refl s
  split
  · exact .refl s
  · exact .same rfl rfl

theorem applicationRequest_keepsRings (line : Fin 16) (s : State) : KeepsRings s (applicationRequest line s) := by
  unfold applicationRequest
  split
  · exact .refl s
  · exact .ite (fun _ => (settle_keepsRings _).after rfl rfl) fun _ => .refl s

/-! #### The link -/

theorem arrived_keepsRings (s : State) : KeepsRings s (arrived s) := by
  refine .same rfl ?_
  simp only [arrived, onLink_link, Link.heard]
  split <;> rfl

theorem receive_keepsRings {f : State → State} (hf : ∀ s, KeepsRings s (f s)) (s : State) :
    KeepsRings s (receive f s) :=
  .ite (fun _ => .refl s) fun _ => ((arrived_keepsRings s).trans (hf _)).trans (settle_keepsRings _)

/-- R101: a frame with a sender session of 0 is counted, and any other is taken. -/
theorem intact_keepsRings {sender : Half} {f : State → State} (hf : ∀ s, KeepsRings s (f s)) (s : State) :
    KeepsRings s (if sender = 0 then countMalformed s else f s) :=
  .ite (fun _ => .same rfl rfl) fun _ => hf s

/-- R106, R108: a HELLO in CALLING leaves the session in its call. -/
theorem helloInCall_session (sender seen : Half) {l : Link} (calling : l.session = .calling) :
    (l.helloInCall sender seen).session = .calling ∨ (l.helloInCall sender seen).session = .aligning := by
  unfold Link.helloInCall
  split
  · exact .inr rfl
  · exact .inl calling

theorem takeHello_keepsRings (sender seen : Half) (s : State) : KeepsRings s (takeHello sender seen s) := by
  unfold takeHello
  split
  · exact .same rfl rfl
  · exact .same rfl rfl
  · rename_i calling
    exact { frame := rfl, kinds := .refl _
            ledger := fun _ h => { h with call := fun _ => helloInCall_session sender seen calling } }
  · exact .ite (fun _ => .refl s) fun _ => enterFailed_keepsRings _ s
  · exact .ite (fun _ => .refl s) fun _ => enterFailed_keepsRings _ s

theorem takeClose_keepsRings (sender : Half) (s : State) : KeepsRings s (takeClose sender s) :=
  .ite (fun _ => enterClosed_keepsRings _ _ s) fun _ => .same rfl rfl

theorem takeEvent_keepsRings (f : RxEventFields) (s : State) : KeepsRings s (takeEvent f s) := by
  unfold takeEvent
  split
  · exact .ite (fun _ => .same rfl rfl) fun _ => .same rfl rfl
  · refine .ite (fun _ => .ite (fun _ => ?_) fun _ => .ite (fun _ => .same rfl rfl) fun _ => .same rfl rfl)
      fun _ => .same rfl rfl
    unfold takeExpected
    split
    · exact (offerEvent_keepsRings _ _).after rfl rfl
    · exact .same rfl rfl
    · exact .same rfl rfl

theorem takeAck_keepsRings (next : Byte) (s : State) : KeepsRings s (takeAck next s) :=
  .ite (fun _ => .ite (fun _ => .refl s) fun _ => .ite (fun _ => .same rfl (acknowledge_session _ _))
    fun _ => .same rfl rfl) fun _ => .same rfl rfl

theorem takeProbe_keepsRings (number : Byte) (t1 : Quad) (s : State) : KeepsRings s (takeProbe number t1 s) :=
  .ite (fun _ => .same rfl rfl) fun _ => .same rfl rfl

/-- R110: the entry to UP ends the LINK_OPEN in flight. -/
theorem enterUp_keepsRings (pause : Option Nat) (s : State) : KeepsRings s (enterUp pause s) := by
  have opened : KeepsRings s
      (finishLinkOpen .ok (postLinkNotice (linkNotice (onLink Link.enterUp s)) (onLink Link.enterUp s))) := by
    refine finishLinkOpen_keepsRings ?_ _
    rw [postLinkNotice_eq]
    rfl
  exact opened.trans ((announceNext_keepsRings _ _).after rfl rfl)

theorem takeEcho_keepsRings (number : Byte) (t1 t2 t3 : Quad) (pause : Option Nat) (s : State) :
    KeepsRings s (takeEcho number t1 t2 t3 pause s) := by
  refine .ite (fun _ => ?_) fun _ => .same rfl rfl
  split
  · exact .ite (fun _ => .ite (fun _ => (enterUp_keepsRings pause _).after rfl rfl) fun _ => .same rfl rfl)
      fun _ => .same rfl rfl
  · exact .same rfl rfl

theorem rxEcho_keepsRings (number : Byte) (t1 t2 t3 : Quad) (part : EchoPart) (s : State) :
    KeepsRings s (rxEcho number t1 t2 t3 part s) := by
  cases part with
  | frame pause => exact receive_keepsRings (takeEcho_keepsRings number t1 t2 t3 pause) s
  | announce pause => exact .ite (fun _ => announceNext_keepsRings _ s) fun _ => .refl s

theorem frameTransmit_keepsRings (s : State) : KeepsRings s (frameTransmit s) :=
  .ite (fun _ => .same rfl (transmit_session _ _)) fun _ => .refl s

theorem frameSent_keepsRings (s : State) : KeepsRings s (frameSent s) := by
  unfold frameSent
  split
  · exact .refl s
  · exact .same rfl rfl

/-- R107, R109, R112, R125: a timer that fails the session. -/
theorem sessionFails_keepsRings (r : Reason) (s : State) : KeepsRings s (settle (enterFailed r s)) :=
  (enterFailed_keepsRings r s).trans (settle_keepsRings _)

theorem helloTimer_keepsRings (s : State) : KeepsRings s (helloTimer s) := .ite (fun _ => .same rfl rfl) fun _ => .refl s

theorem openTimeout_keepsRings (s : State) : KeepsRings s (openTimeout s) :=
  .ite (fun _ => sessionFails_keepsRings _ s) fun _ => .refl s

theorem keepalive_keepsRings (s : State) : KeepsRings s (keepalive s) := .ite (fun _ => .same rfl rfl) fun _ => .refl s

theorem silenceTimeout_keepsRings (s : State) : KeepsRings s (silenceTimeout s) :=
  .ite (fun _ => sessionFails_keepsRings _ s) fun _ => .refl s

theorem probeAttemptEnd_keepsRings (s : State) : KeepsRings s (probeAttemptEnd s) :=
  .ite (fun _ => .ite (fun _ => .same rfl rfl) fun _ => sessionFails_keepsRings _ s) fun _ => .refl s

theorem probeTimer_keepsRings (s : State) : KeepsRings s (probeTimer s) := .ite (fun _ => .same rfl rfl) fun _ => .refl s

theorem ackTimeout_keepsRings (s : State) : KeepsRings s (ackTimeout s) := by
  refine .ite (fun _ => ?_) fun _ => .refl s
  split
  · exact .refl s
  · exact .ite (fun _ => .same rfl rfl) fun _ => sessionFails_keepsRings _ s

theorem stalenessTimeout_keepsRings (s : State) : KeepsRings s (stalenessTimeout s) :=
  .ite (fun _ => .ite (fun _ => .same rfl rfl) fun _ => .same rfl rfl) fun _ => .refl s

/-! #### Deferred commands in flight -/

/-- The jobs of deferred commands change, and their kinds stay. -/
theorem KeepsRings.of_jobs {s t : State} {f : Deferred → Deferred} (frame : t.ringFrame = s.ringFrame)
    (geom : t.geom = s.geom) (session : t.link.session = s.link.session) (deferred : t.deferred = s.deferred.map f)
    (hf : ∀ d, (f d).job.kind = d.job.kind) : KeepsRings s t := by
  have kinds : deferredKinds t = deferredKinds s := by
    unfold deferredKinds
    rw [deferred, List.map_map]
    exact List.map_congr_left fun d _ => hf d
  refine ⟨frame, kinds ▸ .refl _, fun n h => ⟨⟨fun g hg => ?_, kinds ▸ h.nodup⟩, ?_⟩⟩
  · rw [deferred, List.length_map]
    exact h.room g (geom ▸ hg)
  · rw [kinds, session]
    exact h.call

theorem setStatsJob_keepsRings (j : StatsJob) (s : State) : KeepsRings s (setStatsJob j s) :=
  .of_jobs rfl rfl rfl rfl fun d => by rcases d with ⟨tag, _ | _ | _ | _⟩ <;> rfl

/-- R60, R173: a tick counts in the QUIESCE in flight. -/
theorem tick_keepsRings (s : State) : KeepsRings s (tick s) :=
  .ite (fun _ => .refl s) fun _ => .of_jobs (f := Deferred.tick) rfl rfl rfl rfl fun d => by
    rcases d with ⟨tag, _ | _ | _ | _⟩ <;> rfl

theorem quiesceDeadline_keepsRings (s : State) : KeepsRings s (quiesceDeadline s) := by
  unfold quiesceDeadline
  split
  · exact .ite (fun _ => (finishQuiesce_keepsRings _ s).trans (settle_keepsRings _)) fun _ => .refl s
  · exact .refl s

/-- R188: the clear flag empties counters alone. -/
theorem clearIn_keepsRings (item : StatsItem) (s : State) : KeepsRings s (item.clearIn s) := by
  cases item with
  | globalCounter k =>
    simp only [StatsItem.clearIn, clearGlobal]
    split <;> exact .same rfl rfl
  | _ => exact .same rfl rfl

theorem statsItemRead_keepsRings (board : BitVec 16) (s : State) : KeepsRings s (statsItemRead board s) := by
  unfold statsItemRead
  split
  · split
    · exact .refl s
    · rename_i item _ _
      refine .ite (fun _ => KeepsRings.trans ?_ (clearIn_keepsRings item _)) fun _ => ?_
      all_goals exact (setStatsJob_keepsRings _ _).after rfl rfl
  · exact .refl s

theorem statsReadDone_keepsRings (s : State) : KeepsRings s (statsReadDone s) := by
  unfold statsReadDone
  split
  · exact .ite (fun _ => (finishDeferred_keepsRings ..).trans (settle_keepsRings _)) fun _ => .refl s
  · exact .refl s

/-! #### Late offers (R7, R83) -/

theorem offersLate_keepsRings (late : List LateOffer) (s : State) : KeepsRings s (offersLate late s) := by
  have one : ∀ (x : LateOffer) (t : State), KeepsRings t (offerLate x t) := by
    intro x t
    cases x with
    | edge line => exact filterAccept_keepsRings line t
    | unfiltered line level => exact rawChange_keepsRings line level t
    | catchUp line => exact spacingEnd_keepsRings line t
    | announce => exact announceNext_keepsRings 1 t
    | frame f => exact receive_keepsRings (takeEvent_keepsRings f) t
  have fold : ∀ t, KeepsRings t (late.foldl (fun t x => offerLate x t) t) := by
    induction late with
    | nil => exact .refl
    | cons x xs ih => exact fun t => (one x t).trans (ih _)
  exact (fold { s with intakeOpen := false }).after rfl rfl

/-! #### From the promises to the ledger, and back -/

/-- R148: in a part that is not HALTED, places are kept for the deferred commands and for the command being taken or
under execution. -/
theorem State.RingsSound.ledger {s : State} (h : s.RingsSound) (hp : s.part ≠ .halted) :
    s.Ledger (s.cmdRead.toNat + s.executing.isSome.toNat) where
  room := fun g hg => by
    obtain ⟨sound, reserved⟩ := h.geometry hp g hg
    unfold Geometry.Reserved at reserved
    exact ⟨sound, by omega⟩
  nodup := h.nodup
  call := h.linkOpen hp

theorem deferred_nil_of_sublist {s t : State} (kinds : (deferredKinds t).Sublist (deferredKinds s))
    (h : s.deferred = []) : t.deferred = [] := by
  unfold deferredKinds at kinds
  rw [h, List.map_nil] at kinds
  simpa using List.sublist_nil.1 kinds

/-- R143, R148, R158: what keeps the rings and the settings of the lines keeps the rings in service. -/
theorem KeepsRings.ringsSound {s t : State} (k : KeepsRings s t) (inputs : t.settings.inputs = s.settings.inputs)
    (h : s.RingsSound) : t.RingsSound := by
  have frame := k.frame
  simp only [State.ringFrame, RingFrame.mk.injEq] at frame
  obtain ⟨hpart, hstarting, hstatus, -, hindex, hread, hexecuting, -⟩ := frame
  have ledger : t.part ≠ .halted → t.Ledger (t.cmdRead.toNat + t.executing.isSome.toNat) := fun hp => by
    rw [hread, hexecuting]
    exact k.ledger _ (h.ledger (hpart ▸ hp))
  exact {
    geometry := fun hp g hg => by
      obtain ⟨sound, room⟩ := (ledger hp).room g hg
      exact ⟨sound, by unfold Geometry.Reserved; omega⟩
    held := fun hp hn => h.held (hpart ▸ hp) (by simpa [hn] using hstatus.symm)
    starting := hstarting ▸ h.starting
    nodup := h.nodup.sublist k.kinds
    linkOpen := fun hp => (ledger hp).call
    idle := fun hr hh => deferred_nil_of_sublist k.kinds (h.idle (hpart ▸ hr) (hpart ▸ hh))
    reading := fun hr => by
      rw [hpart, hexecuting]
      exact h.reading (hread ▸ hr)
    executing := by
      rw [hpart, hexecuting]
      exact h.executing
    indices := by
      rw [hpart, hindex]
      exact h.indices
    offering := fun w hw n hn => by
      have mode : t.inputs[n].config = s.inputs[n].config := congrFun inputs n
      rw [mode]
      exact h.offering w (hexecuting ▸ hw) n hn }

/-! #### What every step does to host memory and the queue -/

/-- R139, R143, R146, R177: host memory keeps its canonical form, and changes in the bytes alone that the part may
write. -/
structure WritesOwn (s t : State) : Prop where
  wf : Memory.wf s.hostMem → Memory.wf t.hostMem
  own : ∀ a, Memory.read t.hostMem a ≠ Memory.read s.hostMem a → s.MayWrite a

/-- What every step keeps: the queue of waiting steps, the host's own memory, and the rings in service. -/
structure Lawful (s t : State) : Prop where
  pending : t.pending = s.pending
  memory : WritesOwn s t
  rings : s.RingsSound → t.RingsSound

theorem WritesOwn.same {s t : State} (h : t.hostMem = s.hostMem) : WritesOwn s t :=
  ⟨fun wf => h ▸ wf, fun _ hne => absurd (congrArg (Memory.read · _) h) hne⟩

theorem Lawful.refl (s : State) : Lawful s s := ⟨rfl, .same rfl, id⟩

theorem Lawful.ite {s t u : State} {c : Prop} [Decidable c] (ht : c → Lawful s t) (hu : ¬ c → Lawful s u) :
    Lawful s (if c then t else u) := by
  split
  · exact ht ‹_›
  · exact hu ‹_›

theorem KeepsRings.lawful {s t : State} (k : KeepsRings s t) (settings : KeepsSettings s t) : Lawful s t where
  pending := congrArg RingFrame.pending k.frame
  memory := .same (congrArg RingFrame.hostMem k.frame)
  rings := k.ringsSound (congrArg Settings.inputs settings)

/-- Bytes written, from an address upward, change those bytes alone. -/
theorem WritesOwn.writeBytes {s t : State} {address : Nat} {bytes : List Byte}
    (mem : t.hostMem = Memory.writeBytes s.hostMem address bytes)
    (own : ∀ a, address ≤ a → a < address + bytes.length → s.MayWrite a) : WritesOwn s t := by
  refine ⟨fun wf => mem ▸ Memory.writeBytes_wf _ _ wf, fun a ha => ?_⟩
  by_contra hn
  refine ha (mem ▸ Memory.read_writeBytes_other _ _ _ _ ?_)
  by_contra hin
  push Not at hin
  exact hn (own a hin.1 hin.2)

/-! #### Entry to STOPPING and to HALTED (R140, R141) -/

/-- What the entry to STOPPING or HALTED and the execution of a command leave of the frame: all but the part state, the
read of a command record, and the index writes. -/
def RingFrame.outer (f : RingFrame) : RingFrame := { f with part := .idle, indexWrites := [], cmdRead := false }

def State.outer (s : State) : RingFrame := s.ringFrame.outer

def KeepsOuter (s t : State) : Prop := t.outer = s.outer

theorem KeepsRings.outer {s t : State} (k : KeepsRings s t) : KeepsOuter s t :=
  congrArg RingFrame.outer k.frame

theorem KeepsOuter.trans {s t u : State} (h : KeepsOuter s t) (k : KeepsOuter t u) : KeepsOuter s u := Eq.trans k h

theorem KeepsOuter.starting {s t : State} (k : KeepsOuter s t) : t.starting = s.starting :=
  congrArg RingFrame.starting k

theorem KeepsOuter.executing {s t : State} (k : KeepsOuter s t) : t.executing = s.executing :=
  congrArg RingFrame.executing k

theorem KeepsOuter.status {s t : State} (k : KeepsOuter s t) :
    t.geom.map Geometry.status = s.geom.map Geometry.status := congrArg RingFrame.status k

theorem KeepsOuter.hostMem {s t : State} (k : KeepsOuter s t) : t.hostMem = s.hostMem := congrArg RingFrame.hostMem k

theorem KeepsOuter.pending {s t : State} (k : KeepsOuter s t) : t.pending = s.pending := congrArg RingFrame.pending k

theorem KeepsOuter.held {s t : State} (k : KeepsOuter s t) (h : s.geom ≠ none) : t.geom ≠ none := fun hn => by
  have status := k.status
  rw [hn] at status
  exact h (by simpa using status.symm)

/-- R140: the ABORTED completions of the deferred commands take the places kept for them. -/
theorem foldl_abortOne_keeps (ds : List Deferred) : ∀ s : State, (ds.foldl abortOne s).ringFrame = s.ringFrame
    ∧ ∀ n, s.Room (ds.length + n) → (ds.foldl abortOne s).Room n := by
  induction ds with
  | nil => exact fun s => ⟨rfl, fun n h => by simpa using h⟩
  | cons d ds ih =>
    intro s
    obtain ⟨frame, room⟩ := ih (abortOne s d)
    refine ⟨frame.trans (handCompletion_ringFrame ..), fun n h => room n ?_⟩
    refine State.Room.handCompletion (n := ds.length + n) (h.mono (m := ds.length + n + 1) ?_) _ _ _ _ _ _
    rw [List.length_cons]
    omega

/-- R140: with the deferred commands aborted none is in flight, and the other places stay kept. -/
theorem abortDeferred_ledger {s : State} {n : Nat} (h : s.Ledger n) : (abortDeferred s).Ledger n where
  room := (foldl_abortOne_keeps s.deferred s).2 (0 + n) (by simpa using h.room)
  nodup := List.nodup_nil
  call := nofun

theorem abortDeferred_ringFrame (s : State) : (abortDeferred s).ringFrame = s.ringFrame :=
  (foldl_abortOne_keeps s.deferred s).1

theorem closeAtStop_keepsRings (s : State) : KeepsRings s (closeAtStop s) :=
  .ite (fun _ => .refl s) fun _ => enterClosed_keepsRings ..

theorem enterStopping_ringFrame (late : List LateOffer) (s : State) :
    (enterStopping late s).ringFrame = { s.ringFrame with part := .stopping, cmdRead := false } := by
  have closed : (closeAtStop (abortDeferred (offersLate late s))).ringFrame = s.ringFrame :=
    (closeAtStop_keepsRings _).frame.trans ((abortDeferred_ringFrame _).trans (offersLate_keepsRings late s).frame)
  exact (congrArg (fun f : RingFrame => { f with part := .stopping, cmdRead := false }) closed)

theorem enterStopping_deferred (late : List LateOffer) (s : State) : (enterStopping late s).deferred = [] :=
  deferred_nil_of_sublist (closeAtStop_keepsRings (abortDeferred (offersLate late s))).kinds rfl

theorem enterStopping_ledger {s : State} {n : Nat} (h : s.Ledger n) (late : List LateOffer) :
    (enterStopping late s).Ledger n where
  room := ((closeAtStop_keepsRings _).ledger n
    (abortDeferred_ledger ((offersLate_keepsRings late s).ledger n h))).room
  nodup := by simp [deferredKinds, enterStopping_deferred]
  call := by simp [deferredKinds, enterStopping_deferred]

theorem enterStopping_outer (late : List LateOffer) (s : State) : KeepsOuter s (enterStopping late s) :=
  (congrArg RingFrame.outer (enterStopping_ringFrame late s)).trans rfl

/-- R141: what the entry to HALTED leaves. -/
theorem enterHalted_keeps (late : List LateOffer) (s : State) :
    (enterHalted late s).part = .halted ∧ (enterHalted late s).cmdRead = false
      ∧ (enterHalted late s).indexWrites = [] ∧ KeepsOuter s (enterHalted late s)
      ∧ (deferredKinds (enterHalted late s)).Sublist (deferredKinds s) := by
  have closed : KeepsRings s (offersLate late s) := offersLate_keepsRings late s
  have outer : (closeAtHalt (offersLate late s)).outer = s.outer := by
    refine Eq.trans ?_ closed.outer
    unfold closeAtHalt
    split <;> rfl
  have kinds : (deferredKinds (closeAtHalt (offersLate late s))).Sublist (deferredKinds s) := by
    refine List.Sublist.trans (l₂ := deferredKinds (offersLate late s)) ?_ closed.kinds
    unfold closeAtHalt
    split <;> exact .refl _
  unfold enterHalted
  generalize closeAtHalt (offersLate late s) = u at outer kinds
  dsimp only
  rw [takeRaise_eq]
  refine ⟨rfl, rfl, rfl, ?_, kinds⟩
  unfold KeepsOuter
  rw [← outer]
  simp only [State.outer, State.ringFrame, setCause_geom, setCause_starting, setCause_hostMem, setCause_executing,
    setCause_pending, endPulses, resetCapture, discardEvents, Option.map_map]
  rfl

/-- R141: in HALTED nothing is claimed of rings and reservation. -/
theorem enterHalted_ringsSound {s : State} (late : List LateOffer) (nodup : (deferredKinds s).Nodup)
    (starting : ∀ g, s.starting = some (.writingStatus g) → g.Sound ∧ g.compl.unconsumed = 0)
    (offering : ∀ w, s.executing = some w → ∀ n ∈ w.lines, s.inputs[n].config.mode ≠ .off) :
    (enterHalted late s).RingsSound := by
  obtain ⟨part, read, index, outer, kinds⟩ := enterHalted_keeps late s
  exact {
    geometry := fun hp => absurd part hp
    held := by rw [part]; nofun
    starting := fun g hg => starting g (outer.starting ▸ hg)
    nodup := nodup.sublist kinds
    linkOpen := fun hp => absurd part hp
    idle := fun _ hp => absurd part hp
    reading := fun hr => absurd hr (by simp [read])
    executing := fun _ => .inr (.inr part)
    indices := fun hi => absurd index hi
    offering := fun w hw n hn => by
      have mode : (enterHalted late s).inputs[n].config = s.inputs[n].config :=
        congrFun (congrArg Settings.inputs (enterHalted_settings late s)) n
      rw [mode]
      exact offering w (outer.executing ▸ hw) n hn }

/-! #### A command under execution (R147, R155 to R160)

From the take of a command to its answer one place is kept for its completion. -/

/-- R147, R148: RUNNING or STOPPING with no record's read outstanding, with `n` places kept beside those of the deferred
commands. -/
structure State.InService (n : Nat) (s : State) : Prop where
  ledger : s.Ledger n
  writes : s.part = .running ∨ s.part = .stopping
  held : s.geom ≠ none
  read : s.cmdRead = false
  starting : ∀ g, s.starting = some (.writingStatus g) → g.Sound ∧ g.compl.unconsumed = 0

/-- R147: a command has been taken and has no answer. -/
structure State.InExecution (n : Nat) (s : State) : Prop extends s.InService n where
  free : s.executing = none

theorem State.InService.keeps {s t : State} {n : Nat} (h : s.InService n) (k : KeepsRings s t) : t.InService n where
  ledger := k.ledger n h.ledger
  writes := by
    have part : t.part = s.part := congrArg RingFrame.part k.frame
    rw [part]
    exact h.writes
  held := k.outer.held h.held
  read := (congrArg RingFrame.cmdRead k.frame).trans h.read
  starting := k.outer.starting ▸ h.starting

theorem State.InExecution.keeps {s t : State} {n : Nat} (h : s.InExecution n) (k : KeepsRings s t) :
    t.InExecution n := ⟨h.toInService.keeps k, k.outer.executing.trans h.free⟩

theorem State.InExecution.mono {s : State} {m n : Nat} (h : s.InExecution n) (hm : m ≤ n) : s.InExecution m :=
  { h with ledger := h.ledger.mono hm }

/-- R140: a STOP inside an execution keeps the place of the command under execution. -/
theorem State.InExecution.stopped {s : State} {n : Nat} (h : s.InExecution n) (late : List LateOffer) :
    (enterStopping late s).InExecution n where
  ledger := enterStopping_ledger h.ledger late
  writes := .inr rfl
  held := (enterStopping_outer late s).held h.held
  read := rfl
  starting := (enterStopping_outer late s).starting ▸ h.starting
  free := (enterStopping_outer late s).executing.trans h.free

/-- R149: the completion handed over takes its place. -/
theorem State.InExecution.handCompletion {s : State} {n : Nat} (h : s.InExecution (n + 1)) (kind : Byte) (tag : Word)
    (st : Status) (w1 w2 w3 : Word) : (handCompletion kind tag st w1 w2 w3 s).InExecution n := by
  have ledger := State.Ledger.handCompletion h.ledger kind tag st w1 w2 w3
  have held : (Machine.handCompletion kind tag st w1 w2 w3 s).geom ≠ none := by
    rw [handCompletion_complete]
    simpa using h.held
  rw [handCompletion_complete] at ledger held ⊢
  exact ⟨⟨ledger, h.writes, held, h.read, h.starting⟩, h.free⟩

/-- R148, R158: a command that joins the deferred set keeps the place it has as the command under execution. -/
theorem joinDeferred_inExecution {s : State} (h : s.InExecution 1) (tag : Word) {job : Job}
    (fresh : job.kind ∉ deferredKinds s)
    (call : job.kind = .linkOpen → s.link.session = .calling ∨ s.link.session = .aligning) :
    (joinDeferred tag job s).InExecution 0 where
  ledger := by
    have kinds : deferredKinds (joinDeferred tag job s) = deferredKinds s ++ [job.kind] := List.map_append
    refine ⟨⟨fun g hg => ?_, ?_⟩, ?_⟩
    · rw [joinDeferred_deferred, List.length_append, List.length_singleton]
      exact h.ledger.room g hg
    · rw [kinds]
      exact List.nodup_append.2 ⟨h.ledger.nodup, List.nodup_singleton _, fun a ha b hb => by
        rw [List.mem_singleton.1 hb]
        exact fun e => fresh (e ▸ ha)⟩
    · rw [kinds, List.mem_append, List.mem_singleton]
      exact fun hm => hm.elim h.ledger.call fun e => call e.symm
  writes := h.writes
  held := h.held
  read := h.read
  starting := h.starting
  free := h.free

/-- R158: a kind with no command in flight. -/
theorem kind_notMem {k : DeferredKind} {s : State} (h : inFlight k s = false) : k ∉ deferredKinds s := by
  intro hm
  obtain ⟨d, hd, hk⟩ := List.mem_map.1 hm
  have none : findDeferred k s = none := by simpa [inFlight] using h
  exact List.find?_eq_none.1 none d hd (by simpa using hk)

/-- R157, R158: what an execution leaves, by its answer: an immediate completion has its place, a deferred command's
place is its own, and the lines left of a set of offers are lines that make STATE events. -/
def Answer.Leaves (a : Answer) (t : State) : Prop :=
  match a with
  | .done _ _ _ _ => t.InExecution 1
  | .joined => t.InExecution 0
  | .underWay w => t.InExecution 1 ∧ ∀ n ∈ w.lines, t.inputs[n].config.mode ≠ .off

/-- A request, or an execution, made in `s` with the result `r`. -/
structure Served (s : State) (r : State × Answer) : Prop where
  outer : KeepsOuter s r.1
  leaves : s.InExecution 1 → r.2.Leaves r.1

theorem KeepsRings.done {s t : State} (k : KeepsRings s t) (st : Status) (w1 w2 w3 : Word) :
    Served s (t, .done st w1 w2 w3) := ⟨k.outer, fun h => h.keeps k⟩

/-- A request whose every answer is a completion or a deferred command. -/
def Answer.Ends (a : Answer) : Prop := ∀ w, a ≠ .underWay w

theorem Answer.Leaves.mono {a : Answer} {s t : State} (ends : a.Ends) (h : a.Leaves t) (hs : s.InExecution 1) :
    a.Leaves s := by
  cases a with
  | done => exact hs
  | joined => exact hs.mono (Nat.zero_le _)
  | underWay w => exact absurd rfl (ends w)

theorem Answer.Leaves.stopped {a : Answer} {t : State} (ends : a.Ends) (h : a.Leaves t) (late : List LateOffer) :
    a.Leaves (enterStopping late t) := by
  cases a with
  | done => exact State.InExecution.stopped h late
  | joined => exact State.InExecution.stopped h late
  | underWay w => exact absurd rfl (ends w)

/-- A request served in every state. -/
structure Request (f : State → State × Answer) : Prop where
  served : ∀ s, Served s (f s)
  ends : ∀ s, (f s).2.Ends

/-- R140, R160: an execution of one request, whatever falls inside it. -/
theorem whole_served {f : State → State × Answer} (hf : Request f) (falls : Falls) (s : State) :
    Served s (whole f falls s) := by
  rcases falls with _ | ⟨_ | n, late⟩ | ⟨_ | n⟩
  · exact hf.served s
  · exact ⟨(enterStopping_outer late s).trans (hf.served _).outer, fun h => (hf.served _).leaves (h.stopped late)⟩
  · exact ⟨(hf.served s).outer.trans (enterStopping_outer late _),
      fun h => ((hf.served s).leaves h).stopped (hf.ends s) late⟩
  · exact ⟨rfl, fun h => ((hf.served s).leaves h).mono (hf.ends s) h⟩
  · exact hf.served s

/-- A request that ends with a completion and keeps the rings. -/
theorem Request.immediate {f : State → State × Answer}
    (h : ∀ s, KeepsRings s (f s).1 ∧ ∃ st w1 w2 w3, (f s).2 = .done st w1 w2 w3) : Request f where
  served := fun s => by
    obtain ⟨k, st, w1, w2, w3, e⟩ := h s
    refine ⟨k.outer, fun hs => ?_⟩
    rw [e]
    exact hs.keeps k
  ends := fun s w => by
    obtain ⟨-, st, w1, w2, w3, e⟩ := h s
    rw [e]
    nofun

/-! #### Every command -/

theorem rejected_request (status : Status) : Request (rejected status) :=
  .immediate fun s => ⟨.refl s, _, _, _, _, rfl⟩

theorem advance_keepsRings (k : Nat) (w : OfferSet) (s : State) : KeepsRings s (w.advance k s).1 :=
  (OfferSet.advance_only k w s).keepsRings

theorem OfferSet.answer_done (w : OfferSet) : ∃ st w1 w2 w3, w.answer = .done st w1 w2 w3 := by
  unfold OfferSet.answer
  split <;> exact ⟨_, _, _, _, rfl⟩

/-- R157: a set of offers at its end has a completion. -/
theorem OfferSet.answer_leaves (w : OfferSet) {s : State} (h : s.InExecution 1) : w.answer.Leaves s := by
  obtain ⟨st, w1, w2, w3, e⟩ := w.answer_done
  rw [e]
  exact h

/-- R8, R79: an execution that makes the offers of a set, all of them for lines that make STATE events. -/
theorem makeOffers_served {w : OfferSet} {s : State} (on : ∀ n ∈ w.lines, s.inputs[n].config.mode ≠ .off)
    (falls : Falls) : Served s (makeOffers w falls s) := by
  rcases falls with _ | ⟨requests, late⟩ | requests
  · exact ⟨(advance_keepsRings _ w s).outer, fun h => OfferSet.answer_leaves _ (h.keeps (advance_keepsRings _ w s))⟩
  · have advanced := advance_keepsRings requests w s
    exact ⟨advanced.outer.trans (enterStopping_outer late _),
      fun h => OfferSet.answer_leaves _ ((h.keeps advanced).stopped late)⟩
  · have advanced := advance_keepsRings requests w s
    refine ⟨advanced.outer, fun h => ⟨h.keeps advanced, fun n hn => ?_⟩⟩
    have mode : (w.advance requests s).1.inputs[n].config = s.inputs[n].config :=
      congrFun (congrArg Settings.inputs (advance_settings requests w s)) n
    change ((w.advance requests s).1.inputs[n]).config.mode ≠ .off
    rw [mode]
    rw [(w.advance_rest requests s).1] at hn
    exact on n (List.mem_of_mem_drop hn)

theorem Served.after {s t : State} {r : State × Answer} (h : Served t r) (k : KeepsRings s t) : Served s r :=
  ⟨k.outer.trans h.outer, fun hs => h.leaves (hs.keeps k)⟩

theorem refreshExecution_served (tag lines : Word) (falls : Falls) (s : State) :
    Served s (refreshExecution tag lines falls s) := by
  unfold refreshExecution
  split
  · refine makeOffers_served (fun n hn => ?_) falls
    simp only [refreshLines, List.mem_filter, Bool.and_eq_true, bne_iff_ne] at hn
    exact hn.2.2
  · exact whole_served (rejected_request _) falls s

theorem routeSetExecution_served (tag : Word) (f : RouteSetFields) (falls : Falls) (s : State) :
    Served s (routeSetExecution tag f falls s) := by
  have replaced : ∀ u, KeepsRings u (replaceRoute f u) := fun u => .same rfl rfl
  unfold routeSetExecution
  split
  · split
    · refine Served.after (makeOffers_served (fun n hn => ?_) falls) (replaced s)
      simp only [linesOfSource, List.mem_filter, Bool.and_eq_true, bne_iff_ne] at hn
      exact hn.2.1
    · exact whole_served (.immediate fun u => ⟨replaced u, _, _, _, _, rfl⟩) falls s
  · exact whole_served (rejected_request _) falls s

theorem routeClearExecution_served (f : RouteClearFields) (falls : Falls) (s : State) :
    Served s (routeClearExecution f falls s) := by
  refine whole_served (.immediate fun u => ?_) falls s
  split
  · dsimp only
    split
    · exact ⟨.same rfl rfl, _, _, _, _, rfl⟩
    · exact ⟨.same rfl rfl, _, _, _, _, rfl⟩
  · exact ⟨.refl u, _, _, _, _, rfl⟩

theorem changeRouteState_request (target : RouteState) (source : Half) : Request (changeRouteState target source) := by
  refine .immediate fun u => ?_
  unfold changeRouteState
  split
  · dsimp only
    split
    · exact ⟨.refl u, _, _, _, _, rfl⟩
    · exact ⟨.same rfl rfl, _, _, _, _, rfl⟩
  · exact ⟨.refl u, _, _, _, _, rfl⟩

theorem lineInExecution_served (f : LineInFields) (falls : Falls) (s : State) :
    Served s (lineInExecution f falls s) := by
  refine whole_served (.immediate fun u => ?_) falls s
  split
  · exact ⟨.same rfl rfl, _, _, _, _, rfl⟩
  · exact ⟨.refl u, _, _, _, _, rfl⟩

theorem lineOutExecution_served (f : LineOutFields) (falls : Falls) (s : State) :
    Served s (lineOutExecution f falls s) := by
  refine whole_served (.immediate fun u => ?_) falls s
  split
  · exact ⟨.same rfl rfl, _, _, _, _, rfl⟩
  · exact ⟨.refl u, _, _, _, _, rfl⟩

theorem outputSetExecution_served (f : OutputSetFields) (falls : Falls) (s : State) :
    Served s (outputSetExecution f falls s) := by
  refine whole_served (.immediate fun u => ?_) falls s
  split
  · dsimp only
    split
    · split
      · exact ⟨.same rfl rfl, _, _, _, _, rfl⟩
      · exact ⟨.refl u, _, _, _, _, rfl⟩
    · exact ⟨.refl u, _, _, _, _, rfl⟩
  · exact ⟨.refl u, _, _, _, _, rfl⟩

theorem scheduleExecution_served (f : ScheduleFields) (falls : Falls) (s : State) :
    Served s (scheduleExecution f falls s) := by
  refine whole_served (.immediate fun u => ?_) falls s
  split
  · exact ⟨.refl u, _, _, _, _, rfl⟩
  · split
    · exact ⟨(offerEvent_keepsRings _ u).trans (.same rfl rfl), _, _, _, _, rfl⟩
    · exact ⟨.refl u, _, _, _, _, rfl⟩
    · exact ⟨.refl u, _, _, _, _, rfl⟩

theorem timeSetExecution_served (time : Quad) (falls : Falls) (s : State) :
    Served s (timeSetExecution time falls s) := by
  have stepped : ∀ t u, KeepsRings u (stepTime t u) := by
    intro t u
    unfold stepTime
    dsimp only
    split <;> exact .same rfl rfl
  refine whole_served (.immediate fun u => ?_) falls s
  split
  · split
    · exact ⟨stepped _ u, _, _, _, _, rfl⟩
    · exact ⟨.refl u, _, _, _, _, rfl⟩
  · exact ⟨.refl u, _, _, _, _, rfl⟩

theorem linkCloseExecution_served (falls : Falls) (s : State) : Served s (linkCloseExecution falls s) :=
  whole_served (.immediate fun u =>
    ⟨.ite (fun _ => .refl u) fun _ => enterClosed_keepsRings _ _ u, _, _, _, _, rfl⟩) falls s

theorem openExecution_served (falls : Falls) (s : State) : Served s (openExecution falls s) := by
  refine whole_served (.immediate fun u => ⟨?_, _, _, _, _, rfl⟩) falls s
  exact (finishQuiesce_keepsRings .aborted { u with intakeOpen := u.part == .running }).after rfl rfl

/-- R105, R171: a LINK_OPEN joins the deferred set as its call begins; in CLOSED and FAILED none is in flight. -/
theorem linkOpenExecution_served (tag : Word) (f : LinkOpenFields) (falls : Falls) (s : State) :
    Served s (linkOpenExecution tag f falls s) := by
  have called : ∀ u, u.link.session ≠ .calling → u.link.session ≠ .aligning → u.InExecution 1 →
      (joinDeferred tag .linkOpen (onLink (Link.call (linkParamsOf f)) u)).InExecution 0 := by
    intro u hc ha h
    have fresh : DeferredKind.linkOpen ∉ deferredKinds u := fun hm =>
      (h.ledger.call hm).elim hc ha
    refine joinDeferred_inExecution ?_ tag fresh fun _ => .inl rfl
    exact ⟨⟨⟨⟨h.ledger.room, h.ledger.nodup⟩, fun hm => absurd hm fresh⟩, h.writes, h.held, h.read, h.starting⟩, h.free⟩
  refine whole_served ⟨fun u => ?_, fun u w => ?_⟩ falls s
  · split
    · split
      · rename_i hs
        exact ⟨rfl, called u (by rw [hs]; nofun) (by rw [hs]; nofun)⟩
      · rename_i hs
        exact ⟨rfl, called u (by rw [hs]; nofun) (by rw [hs]; nofun)⟩
      · exact (KeepsRings.refl u).done ..
      · exact (KeepsRings.refl u).done ..
      · exact (KeepsRings.refl u).done ..
    · exact (KeepsRings.refl u).done ..
  · split
    · split <;> nofun
    · nofun

/-- R173: a QUIESCE joins the deferred set, and completes at once when its condition holds. -/
theorem quiesceExecution_served (tag deadline : Word) (falls : Falls) (s : State) :
    Served s (quiesceExecution tag deadline falls s) := by
  refine whole_served ⟨fun u => ?_, fun u w => ?_⟩ falls s
  · split
    · exact (KeepsRings.refl u).done ..
    · split
      · exact (KeepsRings.refl u).done ..
      · rename_i hq
        refine ⟨KeepsOuter.trans (t := joinDeferred tag (.quiesce deadline.toNat 0) { u with intakeOpen := false }) rfl
          (settle_keepsRings _).outer, fun h => ?_⟩
        have joined := joinDeferred_inExecution (s := { u with intakeOpen := false })
          (h.keeps (.same rfl rfl)) tag (job := .quiesce deadline.toNat 0)
          (kind_notMem (s := u) (Bool.eq_false_iff.2 hq)) nofun
        exact joined.keeps (settle_keepsRings _)
  · split
    · nofun
    · split <;> nofun

theorem statsReadExecution_served (tag : Word) (f : StatsReadFields) (falls : Falls) (s : State) :
    Served s (statsReadExecution tag f falls s) := by
  refine whole_served ⟨fun u => ?_, fun u w => ?_⟩ falls s
  · split
    · split
      · exact (KeepsRings.refl u).done ..
      · rename_i hq
        exact ⟨rfl, fun h => joinDeferred_inExecution h tag (job := .statsRead _)
          (kind_notMem (Bool.eq_false_iff.2 hq)) nofun⟩
    · exact (KeepsRings.refl u).done ..
  · split
    · split <;> nofun
    · nofun

/-- R179: a FENCE joins the deferred set, and completes at once when it has nothing to wait for. -/
theorem fenceExecution_served (tag : Word) (falls : Falls) (s : State) :
    Served s (fenceExecution tag falls s) := by
  refine whole_served ⟨fun u => ?_, fun u w => ?_⟩ falls s
  · split
    · exact (KeepsRings.refl u).done ..
    · rename_i hq
      let job : Job := .fence u.deferred.length (u.deferred.map fun d => d.job.kind)
      refine ⟨KeepsOuter.trans (t := joinDeferred tag job u) rfl (settle_keepsRings _).outer, fun h => ?_⟩
      have joined := joinDeferred_inExecution h tag (job := job) (kind_notMem (Bool.eq_false_iff.2 hq)) nofun
      exact joined.keeps (settle_keepsRings _)
  · split <;> nofun

theorem cancelExecution_served (eventTag : Word) (falls : Falls) (s : State) :
    Served s (cancelExecution eventTag falls s) :=
  whole_served (.immediate fun _ => ⟨.same rfl rfl, _, _, _, _, rfl⟩) falls s

theorem timeReadExecution_served (falls : Falls) (s : State) : Served s (timeReadExecution falls s) :=
  whole_served (.immediate fun u => ⟨.refl u, _, _, _, _, rfl⟩) falls s

theorem faultsExecution_served (f : FaultsFields) (falls : Falls) (s : State) :
    Served s (faultsExecution f falls s) := by
  refine whole_served (.immediate fun u => ?_) falls s
  split
  · exact ⟨.same rfl rfl, _, _, _, _, rfl⟩
  · exact ⟨.refl u, _, _, _, _, rfl⟩

/-- Every command's execution keeps a place for its completion, whatever falls inside it. -/
theorem executionOf_served (tag : Word) (c : Command) (falls : Falls) (s : State) :
    Served s (executionOf tag c falls s) := by
  cases c with
  | unknown kind => exact whole_served (rejected_request _) falls s
  | routeSet f => exact routeSetExecution_served tag f falls s
  | routeClear f => exact routeClearExecution_served f falls s
  | routeSuspend source => exact whole_served (changeRouteState_request _ source) falls s
  | routeResume source => exact whole_served (changeRouteState_request _ source) falls s
  | lineInConfig f => exact lineInExecution_served f falls s
  | lineOutConfig f => exact lineOutExecution_served f falls s
  | outputSet f => exact outputSetExecution_served f falls s
  | schedule f => exact scheduleExecution_served f falls s
  | cancel eventTag => exact cancelExecution_served eventTag falls s
  | refresh lines => exact refreshExecution_served tag lines falls s
  | timeRead => exact timeReadExecution_served falls s
  | timeSet time => exact timeSetExecution_served time falls s
  | linkOpen f => exact linkOpenExecution_served tag f falls s
  | linkClose => exact linkCloseExecution_served falls s
  | quiesce deadline => exact quiesceExecution_served tag deadline falls s
  | openIntake => exact openExecution_served falls s
  | statsRead f => exact statsReadExecution_served tag f falls s
  | faults f => exact faultsExecution_served f falls s
  | fence => exact fenceExecution_served tag falls s

/-! #### The take and the answer of a command -/

theorem takeCommand_outer (s : State) : KeepsOuter s (takeCommand s) := by
  unfold takeCommand
  split
  · rfl
  · rename_i g hg
    simp only [KeepsOuter, State.outer, RingFrame.outer, State.ringFrame, makeIndexWrite, hg]
    rfl

/-- R147, R148: a command is taken with the place kept since its record's read was issued. -/
theorem takeCommand_inExecution {s : State} (h : s.RingsSound) (hr : s.cmdRead = true) :
    (takeCommand s).InExecution 1 := by
  obtain ⟨running, free⟩ := h.reading hr
  obtain ⟨g, hg⟩ := Option.ne_none_iff_exists'.1 (h.held (.inl running))
  have ledger := h.ledger (by rw [running]; nofun)
  rw [hr, free] at ledger
  rw [takeCommand_ready ⟨running, hr, hg, free⟩]
  obtain ⟨sound, room⟩ := ledger.room g hg
  have size := sound.consumer
  refine ⟨⟨⟨⟨fun g' hg' => ?_, ledger.nodup⟩, ledger.call⟩, .inl running, nofun, rfl, h.starting⟩, free⟩
  cases hg'
  exact ⟨{ sound with consumer := Nat.mod_lt _ (by omega) }, room⟩

/-- R157: the completion of an immediate command takes its place. -/
theorem finishImmediate_inExecution {s : State} (h : s.InExecution 1) (kind : Byte) (tag : Word) (st : Status)
    (w1 w2 w3 : Word) : (finishImmediate kind tag st w1 w2 w3 s).InExecution 0 := by
  have chosen : State.InExecution 1 { s with choices := s.choices + 1 } := h.keeps (.same rfl rfl)
  unfold finishImmediate
  split
  · dsimp only
    split
    · exact State.InExecution.handCompletion (chosen.keeps (settle_keepsRings _)) ..
    · exact (State.InExecution.handCompletion chosen kind tag st w1 w2 w3).keeps (settle_keepsRings _)
  · exact State.InExecution.handCompletion h kind tag st w1 w2 w3

theorem finishImmediate_kinds (kind : Byte) (tag : Word) (st : Status) (w1 w2 w3 : Word) (s : State) :
    (deferredKinds (finishImmediate kind tag st w1 w2 w3 s)).Sublist (deferredKinds s) := by
  have handed : ∀ u : State, deferredKinds (handCompletion kind tag st w1 w2 w3 u) = deferredKinds u := fun u => by
    rw [handCompletion_eq]
    rfl
  unfold finishImmediate
  split
  · dsimp only
    split
    · rw [handed]
      exact (settle_keepsRings _).kinds
    · have settled := (settle_keepsRings (handCompletion kind tag st w1 w2 w3 { s with choices := s.choices + 1 })).kinds
      rw [handed] at settled
      exact settled
  · exact handed s ▸ .refl _

/-- R147, R8: a command has its answer: a place is kept for a set of offers under execution. -/
structure State.Answered (s : State) : Prop extends s.InService s.executing.isSome.toNat where
  offering : ∀ w, s.executing = some w → ∀ n ∈ w.lines, s.inputs[n].config.mode ≠ .off

theorem State.InExecution.answered {s : State} (h : s.InExecution 0) : s.Answered where
  toInService := by
    rw [h.free]
    exact h.toInService
  offering := fun w hw => absurd hw (by simp [h.free])

theorem answerCommand_answered {a : Answer} {s : State} (h : a.Leaves s) (kind : Byte) (tag : Word) :
    (answerCommand kind tag a s).Answered := by
  cases a with
  | done st w1 w2 w3 => exact (finishImmediate_inExecution h ..).answered
  | joined => exact (State.InExecution.keeps h (settle_keepsRings s)).answered
  | underWay w =>
    obtain ⟨exec, on⟩ := h
    refine ⟨⟨⟨⟨exec.ledger.room, exec.ledger.nodup⟩, exec.ledger.call⟩, exec.writes, exec.held, exec.read, exec.starting⟩, ?_⟩
    intro w' hw'
    cases hw'
    exact on

/-- R140: what an execution overtaken by a STOP left in flight is aborted. -/
theorem State.Answered.abortLeftovers {s : State} (h : s.Answered) :
    (abortLeftovers s).Answered ∧ ((abortLeftovers s).part = .stopping → (abortLeftovers s).deferred = []) := by
  unfold Machine.abortLeftovers
  split
  · have aborted : (abortDeferred s).InService s.executing.isSome.toNat := by
      have frame := abortDeferred_ringFrame s
      have outer : KeepsOuter s (abortDeferred s) := congrArg RingFrame.outer frame
      exact {
        ledger := abortDeferred_ledger h.ledger
        writes := by
          have part : (abortDeferred s).part = s.part := congrArg RingFrame.part frame
          rw [part]
          exact h.writes
        held := outer.held h.held
        read := (congrArg RingFrame.cmdRead frame).trans h.read
        starting := outer.starting ▸ h.starting }
    have closed := closeAtStop_keepsRings (abortDeferred s)
    have executing : (closeAtStop (abortDeferred s)).executing = s.executing :=
      closed.outer.executing.trans (congrArg RingFrame.executing (abortDeferred_ringFrame s))
    refine ⟨⟨?_, fun w hw n hn => ?_⟩, fun _ => deferred_nil_of_sublist closed.kinds rfl⟩
    · rw [executing]
      exact aborted.keeps closed
    · have mode : (closeAtStop (abortDeferred s)).inputs[n].config = s.inputs[n].config :=
        congrFun (congrArg Settings.inputs ((abortDeferred_settings s).trans (closeAtStop_settings _))) n
      rw [mode]
      exact h.offering w (executing ▸ hw) n hn
  · exact ⟨h, fun hp => absurd hp ‹_›⟩

/-- R143, R147, R148: an answered command leaves the rings in service. -/
theorem State.Answered.ringsSound {s : State} (h : s.Answered) (idle : s.part = .stopping → s.deferred = []) :
    s.RingsSound where
  geometry := fun _ g hg => by
    obtain ⟨sound, room⟩ := h.ledger.room g hg
    refine ⟨sound, ?_⟩
    unfold Geometry.Reserved
    rw [h.read]
    simp only [Bool.toNat_false]
    omega
  held := fun _ => h.held
  starting := h.starting
  nodup := h.ledger.nodup
  linkOpen := fun _ => h.ledger.call
  idle := fun hr _ => idle (h.writes.resolve_left hr)
  reading := fun hr => absurd hr (by simp [h.read])
  executing := fun _ => h.writes.elim .inl fun hp => .inr (.inl hp)
  indices := fun _ => h.writes
  offering := h.offering

/-- R147, R148: the read of the next record is issued with a place for its completion. -/
theorem commandFetch_ringsSound {s : State} (h : s.RingsSound) : (commandFetch s).RingsSound := by
  unfold commandFetch
  split
  · rename_i fetch
    obtain ⟨g, hg⟩ : ∃ g, s.geom = some g := by
      cases hg : s.geom with
      | none => simp [mayFetch, hg] at fetch
      | some g => exact ⟨g, rfl⟩
    simp only [mayFetch, hg, Bool.and_eq_true, beq_iff_eq, Option.isNone_iff_eq_none, reservationAllows,
      OutRing.free] at fetch
    obtain ⟨⟨⟨⟨running, -⟩, free⟩, -⟩, room⟩ := fetch
    refine { h with geometry := fun hp g' hg' => ?_, reading := fun _ => ⟨running, free⟩ }
    cases hg.symm.trans hg'
    refine ⟨(h.geometry hp g hg).1, ?_⟩
    have room : s.deferred.length < g.compl.size - 1 - g.compl.unconsumed := of_decide_eq_true room
    unfold Geometry.Reserved
    simp only [free, Option.isSome_none, Bool.toNat_false, Bool.toNat_true]
    omega
  · exact h

theorem runCommand_ringsSound (falls : Falls) (kind : Byte) (tag : Word) {x : Execution}
    (hx : ∀ s, Served s (x falls s)) {s : State} (h : s.RingsSound) : (runCommand falls kind tag x s).RingsSound := by
  unfold runCommand
  split
  · rename_i taken
    have leaves := (hx (takeCommand s)).leaves (takeCommand_inExecution h taken.2)
    obtain ⟨answered, idle⟩ := (answerCommand_answered leaves kind tag).abortLeftovers
    exact commandFetch_ringsSound (answered.ringsSound idle)
  · exact h

/-- R8, R80: a set of offers goes on in RUNNING, and ends in STOPPING. -/
theorem goOnOffering_ringsSound (pause : Option Nat) {w : OfferSet} {s : State} (hw : s.executing = some w)
    (h : s.RingsSound) : (goOnOffering pause w s).RingsSound := by
  have notReading : s.cmdRead = false := Bool.eq_false_iff.2 fun hr => by
    have := (h.reading hr).2
    rw [hw] at this
    contradiction
  have inExecution : s.part = .running ∨ s.part = .stopping →
      State.InExecution 1 { s with executing := none } := fun writes => by
    have ledger := h.ledger (by rcases writes with e | e <;> rw [e] <;> nofun)
    rw [notReading, hw] at ledger
    exact ⟨⟨⟨⟨ledger.room, ledger.nodup⟩, ledger.call⟩, writes, h.held writes, notReading, h.starting⟩, rfl⟩
  refine commandFetch_ringsSound ?_
  split
  · rename_i running
    have leaves := (makeOffers_served (s := { s with executing := none }) (h.offering w hw) (fallsOf pause)).leaves
      (inExecution (.inl running))
    have answered := answerCommand_answered leaves (Command.code w.command) w.tag
    refine answered.ringsSound fun stopping => absurd stopping ?_
    have part : (answerCommand (Command.code w.command) w.tag
        (makeOffers w (fallsOf pause) { s with executing := none }).2
        (makeOffers w (fallsOf pause) { s with executing := none }).1).part = s.part := by
      refine (congrArg Stores.part (answerCommand_books _ _ _ _)).trans ?_
      cases pause <;> exact congrArg RingFrame.part (advance_keepsRings _ w { s with executing := none }).frame
    rw [part, running]
    nofun
  · rename_i stopping
    have answered := answerCommand_answered (w.abandon.answer_leaves (inExecution (.inr stopping)))
      (Command.code w.command) w.tag
    obtain ⟨st, w1, w2, w3, e⟩ := w.abandon.answer_done
    have empty : s.deferred = [] := h.idle (by rw [stopping]; nofun) (by rw [stopping]; nofun)
    refine answered.ringsSound fun _ => deferred_nil_of_sublist ?_ empty
    rw [e]
    exact finishImmediate_kinds _ _ _ _ _ _ { s with executing := none }
  all_goals
    have same : answerCommand (Command.code w.command) w.tag (.underWay w) s = s := by
      simp only [answerCommand, ← hw]
    exact same ▸ h

/-! #### Commands, STOP and a bus-master error -/

/-- Nothing of the part's access to host memory, and no waiting step, differs between the two states. -/
def KeepsMemory (s t : State) : Prop := (t.hostMem, t.pending) = (s.hostMem, s.pending)

theorem KeepsMemory.trans {s t u : State} (h : KeepsMemory s t) (k : KeepsMemory t u) : KeepsMemory s u := Eq.trans k h

theorem KeepsOuter.memory {s t : State} (k : KeepsOuter s t) : KeepsMemory s t := Prod.ext k.hostMem k.pending

theorem KeepsMemory.lawful {s t : State} (k : KeepsMemory s t) (rings : s.RingsSound → t.RingsSound) : Lawful s t :=
  ⟨congrArg Prod.snd k, .same (congrArg Prod.fst k), rings⟩

theorem commandFetch_memory (s : State) : KeepsMemory s (commandFetch s) := by
  rw [commandFetch_eq]
  rfl

theorem answerCommand_memory (kind : Byte) (tag : Word) (a : Answer) (s : State) :
    KeepsMemory s (answerCommand kind tag a s) := by
  cases a with
  | done =>
    simp only [answerCommand]
    rw [finishImmediate_eq]
    rfl
  | joined => exact (settle_keepsRings s).outer.memory
  | underWay => rfl

theorem abortLeftovers_memory (s : State) : KeepsMemory s (abortLeftovers s) := by
  unfold abortLeftovers
  split
  · exact KeepsMemory.trans (KeepsOuter.memory (congrArg RingFrame.outer (abortDeferred_ringFrame s)))
      (closeAtStop_keepsRings _).outer.memory
  · rfl

theorem runCommand_memory (falls : Falls) (kind : Byte) (tag : Word) {x : Execution}
    (hx : ∀ s, Served s (x falls s)) (s : State) : KeepsMemory s (runCommand falls kind tag x s) := by
  unfold runCommand
  split
  · have executed := (takeCommand_outer s).trans (hx (takeCommand s)).outer
    exact executed.memory.trans ((answerCommand_memory _ _ _ _).trans
      ((abortLeftovers_memory _).trans (commandFetch_memory _)))
  · rfl

theorem runCommand_lawful (falls : Falls) (kind : Byte) (tag : Word) (o : Word) (c : Command) (s : State) :
    Lawful s (runCommand falls kind tag (executionOf o c) s) :=
  (runCommand_memory falls kind tag (executionOf_served o c falls) s).lawful
    (runCommand_ringsSound falls kind tag (executionOf_served o c falls))

theorem goOnOffering_memory (pause : Option Nat) (w : OfferSet) (s : State) :
    KeepsMemory s (goOnOffering pause w s) := by
  refine KeepsMemory.trans ?_ ((answerCommand_memory _ _ _ _).trans (commandFetch_memory _))
  have freed : KeepsMemory s { s with executing := none } := rfl
  split
  · cases pause with
    | none => exact freed.trans (advance_keepsRings _ w { s with executing := none }).outer.memory
    | some n => exact freed.trans (advance_keepsRings n w { s with executing := none }).outer.memory
  · exact freed
  · rfl
  · rfl
  · rfl

theorem runOffering_lawful (pause : Option Nat) (tag : Word) (c : Command) (s : State) :
    Lawful s (runOffering pause tag c (executionOf tag c) s) := by
  unfold runOffering
  split
  · exact runCommand_lawful _ _ tag tag c s
  · rename_i w hw
    exact .ite (fun _ => (goOnOffering_memory pause w s).lawful (goOnOffering_ringsSound pause hw)) fun _ => .refl s

theorem exec_takeUpTo_lawful (pause : Option Nat) (tag : Word) (c : Command) (s : State) :
    ∃ t, exec (takeUpTo pause tag c) s = .next t ∧ Lawful s t := by
  obtain ⟨t, ht, hcases⟩ := exec_takeUpTo pause tag c s
  refine ⟨t, ht, ?_⟩
  rcases hcases with rfl | ⟨kind, rfl⟩ | ⟨p, rfl⟩
  · exact .refl t
  · exact runCommand_lawful _ _ tag tag c s
  · exact runOffering_lawful _ tag c s

/-- R140: the entry to STOPPING keeps the rings in service, and aborts what is in flight. -/
theorem enterStopping_ringsSound {s : State} (h : s.RingsSound) (running : s.part = .running) (late : List LateOffer) :
    (enterStopping late s).RingsSound := by
  have outer := enterStopping_outer late s
  have ledger := enterStopping_ledger (h.ledger (by rw [running]; nofun)) late
  have answered : (enterStopping late s).Answered := by
    refine ⟨⟨?_, .inr rfl, outer.held (h.held (.inl running)), rfl, outer.starting ▸ h.starting⟩, fun w hw n hn => ?_⟩
    · rw [outer.executing]
      exact ledger.mono (Nat.le_add_left _ _)
    · have mode : (enterStopping late s).inputs[n].config = s.inputs[n].config :=
        congrFun (congrArg Settings.inputs (enterStopping_settings late s)) n
      rw [mode]
      exact h.offering w (outer.executing ▸ hw) n hn
  exact answered.ringsSound fun _ => enterStopping_deferred late s

theorem stopPart_lawful (during : Option Overtaken) (late : List LateOffer) (s : State) :
    Lawful s (stopPart during late s) := by
  refine .ite (fun running => ?_) fun _ => .refl s
  have stopped : Lawful s (enterStopping late s) :=
    (enterStopping_outer late s).memory.lawful fun h => enterStopping_ringsSound h running late
  cases during with
  | none => exact stopped
  | some o => exact .ite (fun _ => runCommand_lawful _ _ _ _ _ s) fun _ => stopped

/-- R160: what an execution has done when the part enters HALTED inside it, and the entry keeps. -/
theorem executedSoFar_keeps (o : Overtaken) {s : State} :
    KeepsMemory s (executedSoFar o s) ∧ (executedSoFar o s).geom.map Geometry.status = s.geom.map Geometry.status
      ∧ (s.RingsSound → s.cmdRead = true → (deferredKinds (executedSoFar o s)).Nodup
        ∧ (∀ g, (executedSoFar o s).starting = some (.writingStatus g) → g.Sound ∧ g.compl.unconsumed = 0)
        ∧ ∀ w, (executedSoFar o s).executing = some w → ∀ n ∈ w.lines,
            (executedSoFar o s).inputs[n].config.mode ≠ .off) := by
  have served := executionOf_served o.tag o.command (.others o.requests) (takeCommand s)
  have outer := (takeCommand_outer s).trans served.outer
  have idle : ∀ {n : Nat} {u : State}, u.InExecution n → (deferredKinds u).Nodup
      ∧ (∀ g, u.starting = some (.writingStatus g) → g.Sound ∧ g.compl.unconsumed = 0)
      ∧ ∀ w, u.executing = some w → ∀ n ∈ w.lines, u.inputs[n].config.mode ≠ .off := fun h =>
    ⟨h.ledger.nodup, h.starting, fun w hw => absurd hw (by simp [h.free])⟩
  have leaves := fun (h : s.RingsSound) (hr : s.cmdRead = true) => served.leaves (takeCommand_inExecution h hr)
  unfold executedSoFar
  dsimp only
  split
  · rename_i w hw
    refine ⟨outer.memory, outer.status, fun h hr => ?_⟩
    have left := leaves h hr
    rw [hw] at left
    obtain ⟨exec, on⟩ := left
    exact ⟨exec.ledger.nodup, exec.starting, fun w' hw' => by cases hw'; exact on⟩
  · rename_i hw
    refine ⟨outer.memory, outer.status, fun h hr => ?_⟩
    have left := leaves h hr
    rw [hw] at left
    exact idle left
  · rename_i hw
    refine ⟨outer.memory, outer.status, fun h hr => ?_⟩
    have left := leaves h hr
    rw [hw] at left
    exact idle left

/-- What writes only the part's own bytes, and then something that writes nothing. -/
theorem WritesOwn.then {s t u : State} (h : WritesOwn s t) (mem : u.hostMem = t.hostMem) : WritesOwn s u where
  wf := fun wf => mem ▸ h.wf wf
  own := fun a ha => h.own a (by rwa [mem] at ha)

/-- R139: the status block is the part's to write. -/
theorem mayWrite_status {s : State} {g : Geometry} (hg : s.geom = some g) {a : Nat} (low : g.status.toNat ≤ a)
    (high : a < g.status.toNat + 64) : s.MayWrite a := .inl ⟨g, .inl hg, .inl ⟨low, high⟩⟩

theorem indexOffset_le (field : IndexField) : indexOffset field ≤ 20 := by
  cases field with
  | command => exact Nat.zero_le _
  | completion => exact Nat.le_of_lt_succ (by decide)
  | event ring => simp only [indexOffset]; omega

/-- R146: index writes change the status block alone. -/
theorem foldl_writeIndex_other (status : Quad) (ws : List IndexWrite) {a : Nat}
    (h : ¬(status.toNat ≤ a ∧ a < status.toNat + 64)) : ∀ s : State,
    Memory.read (ws.foldl (fun t w => writeIndex status (indexOffset w.field) w.value t) s).hostMem a
      = Memory.read s.hostMem a := by
  induction ws with
  | nil => exact fun _ => rfl
  | cons w ws ih =>
    intro s
    refine (ih _).trans (Memory.read_writeBytes_other _ _ _ _ ?_)
    have := indexOffset_le w.field
    rw [le_length]
    omega

/-- R146, R147: the writes of the command consumer index that complete together change the status block alone. -/
theorem commandIndexWritten_writesOwn {s u : State} (mem : u.hostMem = s.hostMem)
    (status : u.geom.map Geometry.status = s.geom.map Geometry.status) : WritesOwn s (commandIndexWritten u) where
  wf := fun wf => commandIndexWritten_wf (mem ▸ wf)
  own := fun a ha => by
    unfold commandIndexWritten at ha
    split at ha
    · exact absurd (congrArg (Memory.read · a) mem) ha
    · rename_i g hg
      rw [hg] at status
      obtain ⟨g', hg', e⟩ := Option.map_eq_some_iff.1 status.symm
      by_contra hn
      refine ha ((foldl_writeIndex_other g.status _ (fun hin => ?_) _).trans (congrArg (Memory.read · a) mem))
      rw [← e] at hin
      exact hn (mayWrite_status hg' hin.1 hin.2)

theorem haltPart_lawful (during : Option Overtaken) (late : List LateOffer) (indexed : Bool) (s : State) :
    Lawful s (haltPart during late indexed s) := by
  have plain : Lawful s (enterHalted late s) := (enterHalted_keeps late s).2.2.2.1.memory.lawful fun h =>
    enterHalted_ringsSound late h.nodup h.starting h.offering
  cases during with
  | none => exact plain
  | some o =>
    refine .ite (fun taken => ?_) fun _ => plain
    obtain ⟨memory, status, rings⟩ := executedSoFar_keeps o (s := s)
    have written : ∀ u, KeepsMemory u (enterHalted late u) := fun u => (enterHalted_keeps late u).2.2.2.1.memory
    cases indexed with
    | false =>
      exact (memory.trans (written _)).lawful fun h => by
        obtain ⟨nodup, starting, offering⟩ := rings h taken.2
        exact enterHalted_ringsSound late nodup starting offering
    | true =>
      have own := commandIndexWritten_writesOwn (congrArg Prod.fst memory) status
      have indexWritten := commandIndexWritten_eq (executedSoFar o s)
      have halted := written (commandIndexWritten (executedSoFar o s))
      refine ⟨?_, ?_, fun h => ?_⟩
      · refine (congrArg Prod.snd halted).trans (Eq.trans ?_ (congrArg Prod.snd memory))
        rw [indexWritten]
      · exact own.then (congrArg Prod.fst halted)
      · obtain ⟨nodup, starting, offering⟩ := rings h taken.2
        refine enterHalted_ringsSound late ?_ ?_ ?_
        all_goals
          simp only [if_true]
          rw [indexWritten]
        · exact nodup
        · exact starting
        · exact offering

/-! #### Starting, and the end of STOPPING (R138 to R140, R142, R143) -/

theorem validRingSize_le {n : Nat} (h : validRingSize n = true) : 16 ≤ n := by
  have mem : n ∈ [16, 32, 64, 128, 256, 512, 1024, 2048, 4096] := List.contains_iff_mem.1 h
  simp only [List.mem_cons, List.not_mem_nil, or_false] at mem
  omega

/-- R143: a ring right after START is in service, and has every slot free. -/
theorem freshRing_sound (base : Quad) {size : Word} (h : validRingSize size.toNat = true) :
    (freshRing base size).Sound ∧ (freshRing base size).unconsumed = 0 := by
  have := validRingSize_le h
  have none : (0 + size.toNat - 0) % size.toNat = 0 := by simp
  refine ⟨⟨?_, ?_, ?_, ?_, trivial, ?_⟩, none⟩
  all_goals simp only [freshRing, OutRing.published, OutRing.unconsumed, List.length_nil]; omega

theorem setupError_noError_iff (b : SetupBlock) : setupError b = .noError ↔
    setupValuesValid b = true ∧ setupAligned b = true ∧ pairwiseDisjoint (setupRegions b) = true := by
  unfold setupError
  cases setupValuesValid b <;> cases setupAligned b <;> cases pairwiseDisjoint (setupRegions b) <;> decide

/-- R139, R143: the geometry of a setup block that passes the checks is in service. -/
theorem geometryOf_sound {b : SetupBlock} (h : setupError b = .noError) :
    (geometryOf b).Sound ∧ (geometryOf b).compl.unconsumed = 0 := by
  obtain ⟨values, -, -⟩ := (setupError_noError_iff b).1 h
  simp only [setupValuesValid, Bool.and_eq_true, List.all_eq_true, Bool.or_eq_true, beq_iff_eq] at values
  obtain ⟨⟨⟨⟨⟨-, cmd⟩, compl⟩, events⟩, -⟩, -⟩ := values
  have := validRingSize_le cmd
  refine ⟨⟨by simp only [geometryOf]; omega, by simp only [geometryOf]; omega, (freshRing_sound _ compl).1,
    fun ring => ?_⟩, (freshRing_sound _ compl).2⟩
  simp only [geometryOf, Fin.getElem_fin, Vector.getElem_ofFn]
  rcases events ring (List.mem_finRange ring) with absent | present
  · exact .inl (by simp only [Fin.getElem_fin] at absent; simp [freshRing, absent])
  · exact .inr (freshRing_sound _ present).1

/-- R147, R158: what is at rest in a part that is neither RUNNING, STOPPING nor HALTED. -/
theorem State.RingsSound.atRest {s : State} (h : s.RingsSound) (hr : s.part ≠ .running) (hs : s.part ≠ .stopping)
    (hh : s.part ≠ .halted) :
    s.deferred = [] ∧ s.cmdRead = false ∧ s.executing = none ∧ s.indexWrites = [] :=
  ⟨h.idle hr hh, Bool.eq_false_iff.2 fun e => hr (h.reading e).1,
    by_contra fun he => (h.executing he).elim hr fun e => e.elim hs hh,
    by_contra fun hi => (h.indices hi).elim hr hs⟩

/-- R138: a start that fails leaves IDLE, with no geometry. -/
theorem failStart_ringsSound {s : State} (e : StartError) (deferred : s.deferred = []) (read : s.cmdRead = false)
    (free : s.executing = none) (index : s.indexWrites = []) : (failStart e s).RingsSound where
  geometry := fun _ _ => nofun
  held := nofun
  starting := fun _ => nofun
  nodup := by simp [failStart, deferredKinds, deferred]
  linkOpen := by simp [failStart, deferredKinds, deferred]
  idle := fun _ _ => deferred
  reading := fun hr => absurd hr (by simp [failStart, read])
  executing := fun he => absurd free he
  indices := fun hi => absurd index hi
  offering := fun w hw => by simp [failStart, free] at hw

/-- R138: a start that fails in a part that is neither RUNNING, STOPPING nor HALTED. -/
theorem failStart_lawful (e : StartError) {s : State} (hr : s.part ≠ .running) (hs : s.part ≠ .stopping)
    (hh : s.part ≠ .halted) : Lawful s (failStart e s) where
  pending := rfl
  memory := .same rfl
  rings := fun h => by
    obtain ⟨deferred, read, free, index⟩ := h.atRest hr hs hh
    exact failStart_ringsSound e deferred read free index

theorem startPart_lawful (s : State) : Lawful s (startPart s) := by
  refine .ite (fun _ => .refl s) fun _ => .ite (fun idle => ?_) fun _ => .refl s
  have rest := fun h : s.RingsSound => h.atRest (by rw [idle]; nofun) (by rw [idle]; nofun) (by rw [idle]; nofun)
  dsimp only
  split
  · refine ⟨rfl, .same rfl, fun h => ?_⟩
    obtain ⟨deferred, read, free, index⟩ := rest h
    exact {
      geometry := fun _ _ => nofun
      held := nofun
      starting := fun _ => nofun
      nodup := h.nodup
      linkOpen := fun _ hm => by simp [deferredKinds, deferred] at hm
      idle := fun _ _ => deferred
      reading := fun hr => absurd hr (by simp [read])
      executing := fun he => absurd free he
      indices := fun hi => absurd index hi
      offering := h.offering }
  · refine ⟨rfl, .same rfl, fun h => ?_⟩
    obtain ⟨deferred, read, free, index⟩ := rest h
    exact failStart_ringsSound _ deferred read free index

theorem setupReadDone_lawful (b : SetupBlock) (s : State) : Lawful s (setupReadDone b s) := by
  unfold setupReadDone
  split
  · rename_i starting _
    split
    · rename_i valid
      have sound := geometryOf_sound valid
      generalize geometryOf b = g at sound
      exact ⟨rfl, .same rfl, fun h => { h with starting := fun g' hg' => by cases hg'; exact sound }⟩
    · exact failStart_lawful _ (by rw [starting]; nofun) (by rw [starting]; nofun) (by rw [starting]; nofun)
  · exact .refl s

/-- R138, R143: with the status block written the geometry takes effect, every slot free. -/
theorem statusBlockInitDone_lawful (s : State) : Lawful s (statusBlockInitDone s) := by
  unfold statusBlockInitDone
  split
  · rename_i g starting writing
    refine ⟨rfl, .writeBytes (address := g.status.toNat) (bytes := zeros 64) ?_ fun a low high => ?_, fun h => ?_⟩
    · simp only [setCause_hostMem, resetCapture_hostMem, writeHost_hostMem]
    · exact .inl ⟨g, .inr writing, .inl ⟨low, by simpa [zeros] using high⟩⟩
    · obtain ⟨deferred, read, free, index⟩ := h.atRest (by rw [starting]; nofun) (by rw [starting]; nofun)
        (by rw [starting]; nofun)
      obtain ⟨sound, empty⟩ := h.starting g writing
      exact {
        geometry := fun _ g' hg' => by
          cases hg'
          refine ⟨sound, ?_⟩
          unfold Geometry.Reserved
          simp [deferred, read, free, empty]
        held := fun _ => nofun
        starting := fun _ => nofun
        nodup := h.nodup
        linkOpen := fun _ hm => by
          simp only [deferredKinds, setCause_deferred, resetCapture_deferred, writeHost_deferred, deferred] at hm
          simp at hm
        idle := fun _ _ => deferred
        reading := fun hr => absurd hr (by simp [read])
        executing := fun he => absurd free he
        indices := fun hi => absurd index hi
        offering := fun w hw => by simp [free] at hw }
  · exact .refl s

/-- R140: at the end of STOPPING every index write but those of commands has completed, and those complete now. -/
theorem stoppingDone_indexWrites {s : State} (h : stoppingDone s = true) :
    s.part = .stopping ∧ s.executing = none ∧ ∀ w ∈ s.indexWrites, w.field = .command := by
  simp only [stoppingDone, noRingWrites, Bool.and_eq_true, beq_iff_eq, Option.isNone_iff_eq_none,
    List.all_eq_true] at h
  tauto

theorem commandIndexWritten_indexWrites {s : State} {g : Geometry} (hg : s.geom = some g) :
    (commandIndexWritten s).indexWrites = s.indexWrites.filter fun w => !(w.field == .command) := by
  unfold commandIndexWritten
  rw [hg]
  dsimp only
  rw [(foldl_writeIndex _ _ _).1]

theorem stoppingEnd_lawful (s : State) : Lawful s (stoppingEnd s) := by
  refine .ite (fun done => ⟨?_, ?_, fun h => ?_⟩) fun _ => .refl s
  · simp only [setCause_pending]
    rw [commandIndexWritten_eq]
  · exact (commandIndexWritten_writesOwn rfl rfl).then rfl
  · obtain ⟨stopping, free, commands⟩ := stoppingDone_indexWrites done
    obtain ⟨g, hg⟩ := Option.ne_none_iff_exists'.1 (h.held (.inr stopping))
    have index : (commandIndexWritten s).indexWrites = [] := by
      rw [commandIndexWritten_indexWrites hg, List.filter_eq_nil_iff]
      exact fun w hw => by simp [commands w hw]
    have deferred : s.deferred = [] := h.idle (by rw [stopping]; nofun) (by rw [stopping]; nofun)
    have read : s.cmdRead = false := Bool.eq_false_iff.2 fun e => by
      have running := (h.reading e).1
      rw [stopping] at running
      contradiction
    rw [commandIndexWritten_eq]
    exact {
      geometry := fun _ => h.geometry (by rw [stopping]; nofun)
      held := nofun
      starting := h.starting
      nodup := h.nodup
      linkOpen := fun _ => h.linkOpen (by rw [stopping]; nofun)
      idle := fun _ _ => deferred
      reading := fun hr => absurd hr (by simp [read])
      executing := fun he => absurd free he
      indices := fun hi => absurd index hi
      offering := h.offering }

/-- R142: after a device reset the part holds no geometry and has nothing in flight. -/
theorem deviceReset_lawful (s : State) : Lawful s (deviceReset s) where
  pending := rfl
  memory := .same rfl
  rings := fun _ => {
    geometry := fun _ _ => nofun
    held := nofun
    starting := fun _ => nofun
    nodup := List.nodup_nil
    linkOpen := nofun
    idle := fun _ _ => rfl
    reading := nofun
    executing := fun h => absurd rfl h
    indices := fun h => absurd rfl h
    offering := fun _ => nofun }

theorem busMasterError_lawful (during : Option Overtaken) (late : List LateOffer) (indexed : Bool) (s : State) :
    Lawful s (busMasterError during late indexed s) := by
  unfold busMasterError
  split
  · rename_i starting
    exact failStart_lawful _ (by rw [starting]; nofun) (by rw [starting]; nofun) (by rw [starting]; nofun)
  · exact haltPart_lawful during late indexed s
  · exact haltPart_lawful during late indexed s
  · exact .refl s
  · exact .refl s

/-! #### The register window (R144, R145, R153, R154, R199) -/

/-- R144, R145: a geometry in service with no more completions unconsumed than before. -/
theorem State.RingsSound.with_geometry {s : State} (h : s.RingsSound) (hp : s.part ≠ .halted) {g g' : Geometry}
    (hg : s.geom = some g) (sound : g.Sound → g'.Sound) (size : g'.compl.size = g.compl.size)
    (unconsumed : g.Sound → g'.compl.unconsumed ≤ g.compl.unconsumed) :
    State.RingsSound { s with geom := some g' } := by
  obtain ⟨held, reserved⟩ := h.geometry hp g hg
  refine { h with geometry := fun _ g'' hg'' => ?_, held := fun _ => nofun }
  cases hg''
  refine ⟨sound held, ?_⟩
  have := unconsumed held
  unfold Geometry.Reserved at *
  dsimp only
  omega

theorem commandFetch_lawful {s t : State} (memory : KeepsMemory s t) (rings : s.RingsSound → t.RingsSound) :
    Lawful s (commandFetch t) :=
  (memory.trans (commandFetch_memory t)).lawful fun h => commandFetch_ringsSound (rings h)

theorem submit_lawful (word : Word) (s : State) : Lawful s (submit word s) := by
  unfold submit
  split
  · rename_i g running hg
    refine .ite (fun inRange => ?_) fun _ => ⟨rfl, .same rfl, fun h => { h with }⟩
    refine commandFetch_lawful (t := { s with geom := some (setProducer word.toNat g) }) rfl fun h => ?_
    exact h.with_geometry (by rw [running]; nofun) hg (fun sound => { sound with producer := inRange }) rfl
      fun _ => Nat.le_refl _
  · exact .refl s

/-- R145: an index released leaves the ring in service. -/
theorem released_sound {word : Word} {g g' : Geometry} (h : released word g = some g') (sound : g.Sound) :
    g'.Sound ∧ g'.compl.size = g.compl.size ∧ g'.compl.unconsumed ≤ g.compl.unconsumed := by
  unfold released at h
  dsimp only at h
  split at h
  · cases h
  · split at h
    · rename_i inRange
      cases h
      exact ⟨{ sound with compl := sound.compl.released inRange }, rfl, sound.compl.released_unconsumed inRange⟩
    · cases h
  · rename_i ring _
    split at h
    · rename_i inRange
      cases h
      refine ⟨sound.setEvent ?_ ring, rfl, Nat.le_refl _⟩
      exact (sound.event ring).imp id fun inService => inService.released inRange
    · cases h

theorem release_lawful (word : Word) (s : State) : Lawful s (release word s) := by
  unfold release
  split
  · rename_i g running hg
    split
    · rename_i g' hg'
      refine commandFetch_lawful (t := { s with geom := some g' }) rfl fun h => ?_
      have kept := fun sound => released_sound hg' sound
      have sound := (h.geometry (by rw [running]; nofun) g hg).1
      exact h.with_geometry (by rw [running]; nofun) hg (fun sound => (kept sound).1) (kept sound).2.1
        fun sound => (kept sound).2.2
    · exact ⟨rfl, .same rfl, fun h => { h with }⟩
  · exact .refl s

theorem writeCause_lawful (word : Word) (s : State) : Lawful s (writeCause word s) :=
  .ite (fun _ => .refl s) fun _ => ⟨rfl, .same rfl, fun h => { h with }⟩

theorem writeEnable_lawful (word : Word) (s : State) : Lawful s (writeEnable word s) :=
  .ite (fun _ => .refl s) fun _ => ⟨rfl, .same rfl, fun h => { h with }⟩

theorem registerWrite_lawful (offset count : Nat) (word : Word) (s : State) :
    Lawful s (registerWrite offset count word s) := by
  refine .ite (fun _ => .refl s) fun _ => ?_
  split
  · exact .ite (fun _ => deviceReset_lawful s) fun _ => .ite (fun _ => startPart_lawful s) fun _ =>
      .ite (fun _ => stopPart_lawful none [] s) fun _ => .refl s
  · exact ⟨rfl, .same rfl, fun h => { h with }⟩
  · exact ⟨rfl, .same rfl, fun h => { h with }⟩
  · exact submit_lawful word s
  · exact release_lawful word s
  · exact writeCause_lawful word s
  · exact writeEnable_lawful word s
  · exact .refl s

/-! #### Writes into host memory that complete (R146, R149 to R151, R177) -/

theorem HostRecord.bytes_length_le (r : HostRecord) : r.bytes.length ≤ 32 := by
  cases r <;> simp [HostRecord.bytes, zeros]

theorem postsRecords_iff (p : PartState) : postsRecords p = true ↔ p = .running ∨ p = .stopping := by
  simp [postsRecords]

theorem completionWritten_lawful {s : State} (posts : s.part = .running ∨ s.part = .stopping) :
    Lawful s (completionWritten s) := by
  unfold completionWritten
  split
  · exact .refl s
  · rename_i g hg
    split
    · exact .refl s
    · rename_i w rest hw
      have mem : w ∈ g.compl.writes := hw ▸ List.mem_cons_self
      refine ⟨rfl, .writeBytes (makeIndexWrite_hostMem ..) fun a low high => ?_, fun h => ?_⟩
      · have := w.record.bytes_length_le
        exact .inl ⟨g, .inl hg, .inr (.inl ⟨w, mem, low, by omega⟩)⟩
      · have written := h.with_geometry (by rcases posts with e | e <;> rw [e] <;> nofun) hg
          (g' := { g with compl := g.compl.written w rest })
          (fun sound => { sound with compl := sound.compl.written hw }) rfl fun _ => Nat.le_refl _
        exact { written with indices := fun _ => posts }

theorem eventWritten_lawful (ring : Fin 4) {s : State} (posts : s.part = .running ∨ s.part = .stopping) :
    Lawful s (eventWritten ring s) := by
  unfold eventWritten
  split
  · exact .refl s
  · rename_i g hg
    split
    · exact .refl s
    · rename_i w rest hw
      have mem : w ∈ g.event[ring].writes := hw ▸ List.mem_cons_self
      refine ⟨rfl, .writeBytes (makeIndexWrite_hostMem ..) fun a low high => ?_, fun h => ?_⟩
      · have := w.record.bytes_length_le
        exact .inl ⟨g, .inl hg, .inr (.inr ⟨ring, w, mem, low, by omega⟩)⟩
      · have written := h.with_geometry (by rcases posts with e | e <;> rw [e] <;> nofun) hg
          (g' := g.setEvent ring (g.event[ring].written w rest))
          (fun sound => sound.setEvent (r := g.event[ring].written w rest)
            ((sound.event ring).imp id fun inService => inService.written hw) ring) rfl fun _ => Nat.le_refl _
        exact { written with indices := fun _ => posts }

/-- R149, R150, R153: an index shown counts and sets its cause. -/
theorem indexShown_ringsSound (field : IndexField) {s : State} (h : s.RingsSound) : (indexShown field s).RingsSound := by
  cases field with
  | command => exact h
  | completion => exact { h with }
  | event ring => exact { h with }

theorem indexWritten_lawful (field : IndexField) {s : State} (posts : s.part = .running ∨ s.part = .stopping) :
    Lawful s (indexWritten field s) := by
  unfold indexWritten
  split
  · rename_i g w hg _
    refine ⟨by cases field <;> rfl, ?_, fun h => indexShown_ringsSound field { h with indices := fun _ => posts }⟩
    refine WritesOwn.then (t := writeIndex g.status (indexOffset field) w.value
      { s with indexWrites := s.indexWrites.eraseP (·.field == field) }) ?_ (by cases field <;> rfl)
    refine .writeBytes (writeIndex_hostMem ..) fun a low high => ?_
    have := indexOffset_le field
    rw [le_length] at high
    exact mayWrite_status hg (by omega) (by omega)
  · exact .refl s

/-- R142, R177: a buffer write issued, or a write left on the bus, is the part's to complete. -/
theorem mayWrite_issued {s : State} {w : BufferWrite} (h : w ∈ s.bufWrites ++ s.issued) {a : Nat}
    (low : w.address ≤ a) (high : a < w.address + w.bytes.length) : s.MayWrite a := .inr ⟨w, h, low, high⟩

theorem bufferWritten_lawful (s : State) : Lawful s (bufferWritten s) := by
  unfold bufferWritten
  split
  · exact .refl s
  · rename_i w rest hw
    have written : Lawful s (writeHost w.address w.bytes { s with bufWrites := rest }) := by
      refine ⟨rfl, .writeBytes (writeHost_hostMem ..) fun a low high => ?_, fun h => { h with }⟩
      exact mayWrite_issued (List.mem_append_left _ (hw ▸ List.mem_cons_self)) low high
    dsimp only
    split
    · rename_i j _
      have counted := setStatsJob_keepsRings { j with written := j.written + w.bytes.length }
        (writeHost w.address w.bytes { s with bufWrites := rest })
      exact ⟨written.pending, written.memory.then rfl, fun h => counted.ringsSound rfl (written.rings h)⟩
    · exact written

theorem issuedWritten_lawful (index : Nat) (s : State) : Lawful s (issuedWritten index s) := by
  unfold issuedWritten
  split
  · exact .refl s
  · rename_i w hw
    refine .ite (fun _ => ⟨rfl, .writeBytes (writeHost_hostMem ..) fun a low high => ?_, fun h => { h with }⟩)
      fun _ => .refl s
    exact mayWrite_issued (List.mem_append_right _ (List.mem_of_getElem? hw)) low high

theorem recordWriteDone_lawful (target : WriteTarget) (s : State) : Lawful s (recordWriteDone target s) := by
  cases target with
  | completionRing =>
    exact .ite (fun posts => completionWritten_lawful ((postsRecords_iff _).1 posts)) fun _ => .refl s
  | eventRing ring => exact .ite (fun posts => eventWritten_lawful ring ((postsRecords_iff _).1 posts)) fun _ => .refl s
  | index field => exact .ite (fun posts => indexWritten_lawful field ((postsRecords_iff _).1 posts)) fun _ => .refl s
  | statsBuffer => exact .ite (fun _ => bufferWritten_lawful s) fun _ => .refl s
  | issued index => exact issuedWritten_lawful index s

/-! #### Every step -/

/-- R139, R143, R146, R148, R158, R177: every meaning keeps the queue, the rings in service, and the host's own
memory. -/
theorem exec_lawful (c : Instr) (s : State) : ∃ t, exec c s = .next t ∧ Lawful s t := by
  cases c with
  | start => exact ⟨_, rfl, startPart_lawful s⟩
  | stop during late => exact ⟨_, rfl, stopPart_lawful during late s⟩
  | reset => exact ⟨_, rfl, deviceReset_lawful s⟩
  | resetNAssert =>
    have reset := deviceReset_lawful s
    exact ⟨_, rfl, reset.pending, reset.memory.then rfl, fun h => { reset.rings h with }⟩
  | resetNRelease => exact ⟨_, rfl, rfl, .same rfl, fun h => { h with }⟩
  | functionReset => exact ⟨_, rfl, deviceReset_lawful s⟩
  | setupReadDone block => exact ⟨_, rfl, setupReadDone_lawful block s⟩
  | statusBlockInitDone => exact ⟨_, rfl, statusBlockInitDone_lawful s⟩
  | stoppingEnd => exact ⟨_, rfl, stoppingEnd_lawful s⟩
  | busMasterError during late indexed => exact ⟨_, rfl, busMasterError_lawful during late indexed s⟩
  | submit word => exact ⟨_, rfl, submit_lawful word s⟩
  | release word => exact ⟨_, rfl, release_lawful word s⟩
  | intCause word => exact ⟨_, rfl, writeCause_lawful word s⟩
  | intEnable word => exact ⟨_, rfl, writeEnable_lawful word s⟩
  | registerWrite offset count word => exact ⟨_, rfl, registerWrite_lawful offset count word s⟩
  | unknownCommand tag kind => exact exec_takeUpTo_lawful none tag (.unknown kind) s
  | routeSet tag f pause => exact exec_takeUpTo_lawful pause tag (.routeSet f) s
  | routeClear tag f => exact exec_takeUpTo_lawful none tag (.routeClear f) s
  | routeSuspend tag source => exact exec_takeUpTo_lawful none tag (.routeSuspend source) s
  | routeResume tag source => exact exec_takeUpTo_lawful none tag (.routeResume source) s
  | lineInConfig tag f => exact exec_takeUpTo_lawful none tag (.lineInConfig f) s
  | lineOutConfig tag f => exact exec_takeUpTo_lawful none tag (.lineOutConfig f) s
  | outputSet tag f => exact exec_takeUpTo_lawful none tag (.outputSet f) s
  | schedule tag f => exact exec_takeUpTo_lawful none tag (.schedule f) s
  | cancel tag eventTag => exact exec_takeUpTo_lawful none tag (.cancel eventTag) s
  | refresh tag lines pause => exact exec_takeUpTo_lawful pause tag (.refresh lines) s
  | timeRead tag => exact exec_takeUpTo_lawful none tag .timeRead s
  | timeSet tag time => exact exec_takeUpTo_lawful none tag (.timeSet time) s
  | linkOpen tag f => exact exec_takeUpTo_lawful none tag (.linkOpen f) s
  | linkClose tag => exact exec_takeUpTo_lawful none tag .linkClose s
  | quiesce tag deadline => exact exec_takeUpTo_lawful none tag (.quiesce deadline) s
  | openIntake tag => exact exec_takeUpTo_lawful none tag .openIntake s
  | statsRead tag f => exact exec_takeUpTo_lawful none tag (.statsRead f) s
  | faults tag f => exact exec_takeUpTo_lawful none tag (.faults f) s
  | fence tag => exact exec_takeUpTo_lawful none tag .fence s
  | quiesceDeadline => exact ⟨_, rfl, (quiesceDeadline_keepsRings s).lawful (quiesceDeadline_settings s)⟩
  | statsItemRead board => exact ⟨_, rfl, (statsItemRead_keepsRings board s).lawful (statsItemRead_settings board s)⟩
  | statsReadDone => exact ⟨_, rfl, (statsReadDone_keepsRings s).lawful (statsReadDone_settings s)⟩
  | routerTake pause => exact ⟨_, rfl, (routerTake_keepsRings pause s).lawful (routerTake_settings pause s)⟩
  | holdRelease => exact ⟨_, rfl, (holdRelease_keepsRings s).lawful (holdRelease_settings s)⟩
  | handoverTake => exact ⟨_, rfl, (handoverTake_keepsRings s).lawful (handoverTake_settings s)⟩
  | applicationRequest line =>
    exact ⟨_, rfl, (applicationRequest_keepsRings line s).lawful (applicationRequest_settings line s)⟩
  | pulseEnd line => exact ⟨_, rfl, KeepsRings.lawful (.same rfl rfl) (pulseEnd_settings line s)⟩
  | eventRecordTake poster =>
    exact ⟨_, rfl, (eventRecordTake_keepsRings poster s).lawful (eventRecordTake_settings poster s)⟩
  | recordWriteDone target => exact ⟨_, rfl, recordWriteDone_lawful target s⟩
  | rawChange line level => exact ⟨_, rfl, (rawChange_keepsRings line level s).lawful (rawChange_settings line level s)⟩
  | filterAccept line => exact ⟨_, rfl, (filterAccept_keepsRings line s).lawful (filterAccept_settings line s)⟩
  | spacingEnd line => exact ⟨_, rfl, (spacingEnd_keepsRings line s).lawful (spacingEnd_settings line s)⟩
  | faultRaise index => exact ⟨_, rfl, (faultRaise_keepsRings index s).lawful (faultRaise_settings index s)⟩
  | crcError =>
    exact ⟨_, rfl, KeepsRings.lawful (.ite (fun _ => .refl s) fun _ => .same rfl rfl) (KeepsSettings.ite rfl rfl)⟩
  | frameMalformed =>
    exact ⟨_, rfl, (receive_keepsRings (f := countMalformed) (fun _ => .same rfl rfl) s).lawful
      (receive_settings (f := countMalformed) (fun _ => rfl) s)⟩
  | rxHello sender seen =>
    exact ⟨_, rfl, (receive_keepsRings (intact_keepsRings (takeHello_keepsRings sender seen)) s).lawful
      (receive_settings (intact_settings (takeHello_settings sender seen)) s)⟩
  | rxClose sender =>
    exact ⟨_, rfl, (receive_keepsRings (intact_keepsRings (takeClose_keepsRings sender)) s).lawful
      (receive_settings (intact_settings (takeClose_settings sender)) s)⟩
  | rxIdle sender =>
    exact ⟨_, rfl, (receive_keepsRings (intact_keepsRings (f := fun s => s) .refl) s).lawful
      (receive_settings (intact_settings (f := fun s => s) .refl) s)⟩
  | rxEvent f =>
    exact ⟨_, rfl, (receive_keepsRings (takeEvent_keepsRings f) s).lawful (receive_settings (takeEvent_settings f) s)⟩
  | rxAck next =>
    exact ⟨_, rfl, (receive_keepsRings (takeAck_keepsRings next) s).lawful (receive_settings (takeAck_settings next) s)⟩
  | rxProbe number t1 =>
    exact ⟨_, rfl, (receive_keepsRings (takeProbe_keepsRings number t1) s).lawful
      (receive_settings (f := takeProbe number t1) (fun _ => .ite rfl rfl) s)⟩
  | rxEcho number t1 t2 t3 part =>
    exact ⟨_, rfl, (rxEcho_keepsRings number t1 t2 t3 part s).lawful (rxEcho_settings number t1 t2 t3 part s)⟩
  | frameTransmit => exact ⟨_, rfl, (frameTransmit_keepsRings s).lawful (KeepsSettings.ite rfl rfl)⟩
  | frameSent => exact ⟨_, rfl, (frameSent_keepsRings s).lawful (frameSent_settings s)⟩
  | helloTimer => exact ⟨_, rfl, (helloTimer_keepsRings s).lawful (KeepsSettings.ite rfl rfl)⟩
  | openTimeout =>
    exact ⟨_, rfl, (openTimeout_keepsRings s).lawful (KeepsSettings.ite (sessionFails_settings _ s) rfl)⟩
  | keepalive => exact ⟨_, rfl, (keepalive_keepsRings s).lawful (KeepsSettings.ite rfl rfl)⟩
  | silenceTimeout =>
    exact ⟨_, rfl, (silenceTimeout_keepsRings s).lawful (KeepsSettings.ite (sessionFails_settings _ s) rfl)⟩
  | probeAttemptEnd =>
    exact ⟨_, rfl, (probeAttemptEnd_keepsRings s).lawful
      (KeepsSettings.ite (KeepsSettings.ite rfl (sessionFails_settings _ s)) rfl)⟩
  | probeTimer => exact ⟨_, rfl, (probeTimer_keepsRings s).lawful (KeepsSettings.ite rfl rfl)⟩
  | ackTimeout => exact ⟨_, rfl, (ackTimeout_keepsRings s).lawful (ackTimeout_settings s)⟩
  | stalenessTimeout =>
    exact ⟨_, rfl, (stalenessTimeout_keepsRings s).lawful (KeepsSettings.ite (KeepsSettings.ite rfl rfl) rfl)⟩
  | tick => exact ⟨_, rfl, (tick_keepsRings s).lawful (KeepsSettings.ite rfl rfl)⟩

/-- The step of the machine takes the oldest waiting step from the queue, and is lawful in what is left. -/
theorem step_lawful {s t : State} (h : step s = .next t) :
    t = s ∨ ∃ rest, Lawful { s with pending := rest } t := by
  unfold step at h
  split at h
  · cases h
    exact .inl rfl
  · rename_i c rest _
    obtain ⟨u, hu, k⟩ := exec_lawful c { s with pending := rest }
    cases hu.symm.trans h
    exact .inr ⟨rest, k⟩

/-- Settles O5: every meaning keeps the rings in service (`exec_lawful`). -/
theorem stepKeepsRingsAndReservation : Obligations.StepKeepsRingsAndReservation := by
  intro s t hs h
  rcases step_lawful h with rfl | ⟨rest, k⟩
  · exact hs.rings
  · exact k.rings { hs.rings with }

/-- Settles O9: every meaning writes the part's own bytes alone (`exec_lawful`). -/
theorem stepWritesOnlyOwnedHostMemory : Obligations.StepWritesOnlyOwnedHostMemory := by
  intro s t wf h
  rcases step_lawful h with rfl | ⟨rest, k⟩
  · exact ⟨wf, fun a ha => absurd rfl ha⟩
  · exact ⟨k.memory.wf wf, k.memory.own⟩

/-- Settles O2: every meaning answers a next state, and leaves the queue alone (`exec_lawful`). -/
theorem everyStepAnswersAndKeepsQueue : Obligations.EveryStepAnswersAndKeepsQueue := fun c s => by
  obtain ⟨t, ht, k⟩ := exec_lawful c s
  exact ⟨t, ht, k.pending⟩

end Sys2Proof.Machine
end

section
/-! PROOFS. Device reset (O13), the start sequence (O14) and the checks of the setup block (O15), SUBMIT and RELEASE (O19, O20),
and the interrupt registers (O21). -/

namespace Sys2Proof.Machine

/-! ### Device reset and the start sequence (R5, R71, R137, R138, R142, R143) -/

/-- R142: the writes that a device reset leaves on the bus, in a part that is starting or holds a geometry, or not. -/
theorem outstandingWrites_eq (s : State) : outstandingWrites s =
    (match s.starting with
      | some (.writingStatus g) => [⟨g.status.toNat, List.replicate 64 0⟩]
      | _ => [])
    ++ (match s.geom with
      | some g => g.compl.writesOut ++ g.event[0].writesOut ++ g.event[1].writesOut ++ g.event[2].writesOut
          ++ g.event[3].writesOut ++ s.indexWrites.map (IndexWrite.out g.status)
      | none => [])
    ++ s.bufWrites := by
  unfold outstandingWrites zeros
  congr 2
  rcases s.starting with _ | _ | _ <;> rfl

/-- Settles O13, in each case of the start and of the geometry. -/
theorem deviceResetLeavesResetState : Obligations.DeviceResetLeavesResetState := by
  intro s writesOf t
  have reset : deviceReset s = t := by
    unfold deviceReset
    rw [outstandingWrites_eq]
    rfl
  refine ⟨congrArg _ reset, congrArg _ reset, ?_, rfl⟩
  rw [← reset]
  rfl

/-- R138: START in a part that is not IDLE, or in reset. -/
theorem startPart_ignored {s : State} (h : s.part ≠ .idle ∨ s.resetHeld = true) : startPart s = s := by
  unfold startPart
  split
  · rfl
  · rename_i held
    exact if_neg (h.resolve_right held)

/-- R138: the state in which START leaves the part, the read of the setup block outstanding. -/
def State.started (s : State) : State :=
  { s with
    part := .starting, startError := .noError, starting := some (.readingSetup (setupAddress s)), geom := none
    intake := [], intakeOpen := false, hold := [] }

theorem startPart_idle {s : State} (idle : s.part = .idle) (held : s.resetHeld = false) :
    startPart s = if (setupAddress s).toNat % 4096 = 0 then s.started else failStart .badAlign s.started := by
  exact (if_neg (by simp [held])).trans (if_pos idle)

theorem setupAddress_toNat (s : State) : (setupAddress s).toNat = s.setupLo.toNat + 2 ^ 32 * s.setupHi.toNat := by
  have := s.setupLo.isLt
  have := s.setupHi.isLt
  exact Nat.mod_eq_of_lt (by omega)

/-- 13.2: in a setup block that passes the checks the notice selector is NONE or names a ring. -/
theorem noticeOf_getD (b : Byte) :
    (noticeOf b).getD none = if h : b.toNat < 4 then some (⟨b.toNat, h⟩ : Fin 4) else none := by
  unfold noticeOf
  by_cases hb : b = 0xFF
  · subst hb
    rfl
  · rw [if_neg hb]
    split <;> rfl

theorem resetCapture_stable (s : State) :
    resetCapture s = { s with inputs := Vector.ofFn fun n => s.inputs[n].stable } := rfl

/-- Settles O14, row by row. -/
theorem startSequenceReachesRunning : Obligations.StartSequenceReachesRunning := by
  refine ⟨fun s => ?_, fun s b a => ⟨fun starting reading => ⟨fun valid => ?_, fun failed => ?_⟩, fun other => ?_⟩,
    fun s g => ⟨fun starting writing => ?_, fun other => ?_⟩⟩
  · refine ⟨fun idle held aligned => ?_, fun idle held misaligned => ?_, fun h => congrArg _ (startPart_ignored h)⟩
    · exact congrArg _ ((startPart_idle idle held).trans (if_pos (by rwa [setupAddress_toNat])))
    · exact congrArg _ ((startPart_idle idle held).trans (if_neg (by rwa [setupAddress_toNat])))
  · simp only [exec, execSetupReadDone, setupReadDone, starting, reading, valid, if_true, geometryOf, noticeOf_getD]
    rfl
  · simp only [exec, execSetupReadDone, setupReadDone, starting, reading, failed, if_false]
    rfl
  · simp only [exec, execSetupReadDone, setupReadDone]
    split
    · rename_i starting reading
      exact absurd reading (other.resolve_left (not_not.2 starting) _)
    · rfl
  · simp only [exec, execStatusBlockInitDone, statusBlockInitDone, starting, writing, resetCapture_stable, writeHost, zeros]
  · simp only [exec, execStatusBlockInitDone, statusBlockInitDone]
    split
    · rename_i starting writing
      exact absurd writing (other.resolve_left (not_not.2 starting) _)
    · rfl

/-! ### The checks of the setup block (R139) -/

theorem validRingSize_iff (n : Nat) : validRingSize n = true ↔ ∃ k : Nat, 4 ≤ k ∧ k ≤ 12 ∧ n = 2 ^ k := by
  have powers : [16, 32, 64, 128, 256, 512, 1024, 2048, 4096] = (List.range 9).map fun i => 2 ^ (i + 4) := by decide
  unfold validRingSize
  rw [List.contains_iff_mem, powers, List.mem_map]
  constructor
  · rintro ⟨i, hi, rfl⟩
    exact ⟨i + 4, by omega, by have := List.mem_range.1 hi; omega, rfl⟩
  · rintro ⟨k, low, high, rfl⟩
    exact ⟨k - 4, List.mem_range.2 (by omega), by rw [Nat.sub_add_cancel low]⟩

theorem noticeOf_none_iff (b : Byte) : noticeOf b = some none ↔ b = 0xFF := by
  unfold noticeOf
  split
  · simp_all
  · split <;> simp_all

theorem noticeOf_ring_iff (b : Byte) (ring : Fin 4) : noticeOf b = some (some ring) ↔ b.toNat = ring.val := by
  unfold noticeOf
  split
  · rename_i none
    have := ring.isLt
    refine ⟨nofun, fun h => absurd h ?_⟩
    rw [none]
    exact ne_of_gt (this.trans (by decide))
  · split
    · simp [Fin.ext_iff]
    · have := ring.isLt
      exact ⟨nofun, fun h => by omega⟩

/-- R139: the first table, as it is worded. -/
theorem setupValuesValid_iff (b : SetupBlock) : setupValuesValid b = true ↔
    b.version = 1 ∧ validRingSize b.cmdSize.toNat = true ∧ validRingSize b.complSize.toNat = true
      ∧ (∀ i : Fin 4, b.eventSize[i] = 0 ∨ validRingSize b.eventSize[i].toNat = true)
      ∧ (b.notice = 0xFF ∨ ∃ ring : Fin 4, b.notice.toNat = ring.val ∧ b.eventSize[ring] ≠ 0)
      ∧ ∀ r ∈ setupRegions b, r.1 + r.2 ≤ 2 ^ 64 := by
  simp only [← noticeOf_none_iff, ← noticeOf_ring_iff]
  unfold setupValuesValid
  rcases noticeOf b.notice with _ | _ | ring
  · simp
  · simp [List.all_eq_true, and_assoc]
  · simp [List.all_eq_true, and_assoc]

theorem pairwiseDisjoint_iff (rs : List (Nat × Nat)) : pairwiseDisjoint rs = true
    ↔ rs.Pairwise fun p q => p.1 + p.2 ≤ q.1 ∨ q.1 + q.2 ≤ p.1 := by
  induction rs with
  | nil => simp [pairwiseDisjoint]
  | cons r rs ih => simp [pairwiseDisjoint, disjointRegions, ih]

theorem setupRegions_eq (b : SetupBlock) : setupRegions b
    = (b.cmdBase.toNat, 32 * b.cmdSize.toNat) :: (b.complBase.toNat, 32 * b.complSize.toNat)
      :: (b.status.toNat, 64) :: ((List.finRange 4).filter fun i => b.eventSize[i] ≠ 0).map
        fun i => (b.eventBase[i].toNat, 32 * b.eventSize[i].toNat) := by
  unfold setupRegions
  congr 4
  refine List.filter_congr fun i _ => ?_
  rw [Bool.eq_iff_iff, bne_iff_ne, decide_eq_true_iff]

/-- Settles O15: each of the three tables of R139 is checked as it is worded, and the first that fails gives the code. -/
theorem setupBlockChecks : Obligations.SetupBlockChecks := by
  intro b isSize regions values aligned disjoint
  have hregions : setupRegions b = regions := setupRegions_eq b
  have hvalues : setupValuesValid b = true ↔ values := by
    rw [setupValuesValid_iff, hregions]
    simp only [validRingSize_iff]
    rfl
  have haligned : setupAligned b = true ↔ aligned := by
    simp only [setupAligned, hregions, List.all_eq_true, decide_eq_true_eq]
    rfl
  have hdisjoint : pairwiseDisjoint (setupRegions b) = true ↔ disjoint := by
    rw [hregions]
    exact pairwiseDisjoint_iff regions
  rw [← hvalues, ← haligned, ← hdisjoint]
  unfold setupError
  cases setupValuesValid b <;> cases setupAligned b <;> cases pairwiseDisjoint (setupRegions b) <;> decide

/-! ### SUBMIT and RELEASE (R143 to R145, R147) -/

/-- R147, R148: in RUNNING the read of the next command record is issued when one waits, none is under execution, and
the reservation allows it. -/
theorem commandFetch_cases {s : State} {g : Geometry} (running : s.part = .running) (hg : s.geom = some g) :
    commandFetch s = { s with cmdRead := s.cmdRead || (s.executing.isNone && g.cmd.consumer != g.cmd.producer
      && decide (s.deferred.length < g.compl.free)) } := by
  have may : mayFetch s = (!s.cmdRead && (s.executing.isNone && g.cmd.consumer != g.cmd.producer
      && decide (s.deferred.length < g.compl.free))) := by
    unfold mayFetch reservationAllows
    rw [hg]
    simp [running, Bool.and_assoc]
  unfold commandFetch
  rw [may]
  generalize (s.executing.isNone && g.cmd.consumer != g.cmd.producer
    && decide (s.deferred.length < g.compl.free)) = fetches
  cases fetches
  · simp only [Bool.and_false, Bool.false_eq_true, if_false, Bool.or_false]
  · cases hr : s.cmdRead
    · simp only [Bool.not_false, Bool.true_and, if_true, Bool.or_true]
    · simp only [Bool.not_true, Bool.false_and, Bool.false_eq_true, if_false, Bool.or_true]
      rw [← hr]

theorem submit_running {s : State} {g : Geometry} (running : s.part = .running) (hg : s.geom = some g) (word : Word) :
    submit word s = if word.toNat < g.cmd.size then commandFetch { s with geom := some (setProducer word.toNat g) }
      else raiseFault .hostProtocol word s := by
  unfold submit
  rw [running, hg]

theorem submit_ignored {s : State} (h : s.part ≠ .running) (word : Word) : submit word s = s := by
  unfold submit
  split
  · exact absurd ‹_› h
  · rfl

theorem release_accepted {s : State} {g g1 : Geometry} {word : Word} (running : s.part = .running)
    (hg : s.geom = some g) (h : released word g = some g1) :
    release word s = commandFetch { s with geom := some g1 } := by
  unfold release
  simp only [running, hg, h]

theorem release_refused {s : State} {g : Geometry} {word : Word} (running : s.part = .running)
    (hg : s.geom = some g) (h : released word g = none) : release word s = raiseFault .hostProtocol word s := by
  unfold release
  simp only [running, hg, h]

theorem release_ignored {s : State} (h : s.part ≠ .running) (word : Word) : release word s = s := by
  unfold release
  split
  · exact absurd ‹_› h
  · rfl

/-- 13.5: a read of the four bytes of a register. -/
theorem readBytes_four (s : State) {offset : Nat} (aligned : offset % 4 = 0) :
    s.readBytes offset 4 = le 4 (s.readWord offset).toNat := by
  have byte : ∀ i < 4, (s.readWord (offset + i - (offset + i) % 4)).extractLsb' (8 * ((offset + i) % 4)) 8
      = BitVec.ofNat 8 ((s.readWord offset).toNat / 2 ^ (8 * i)) := by
    intro i hi
    have rest : (offset + i) % 4 = i := by omega
    rw [rest, Nat.add_sub_cancel]
    apply BitVec.eq_of_toNat_eq
    rw [BitVec.extractLsb'_toNat, BitVec.toNat_ofNat, Nat.shiftRight_eq_div_pow]
  have range : List.range 4 = [0, 1, 2, 3] := by decide
  simp only [State.readBytes, range, List.map_cons, List.map_nil, le]
  rw [byte 0 (by omega), byte 1 (by omega), byte 2 (by omega), byte 3 (by omega)]
  simp [Nat.div_div_eq_div_mul]

/-- Settles O19. -/
theorem submitSetsProducerIndex : Obligations.SubmitSetsProducerIndex := by
  refine fun s word => ⟨fun g hg running => ⟨fun inRange => ?_, fun beyond => ?_⟩,
    fun other => congrArg _ (submit_ignored other word), fun g hg => ?_⟩
  · have fetched := commandFetch_cases (s := { s with geom := some (setProducer word.toNat g) }) running rfl
    exact congrArg _ ((submit_running running hg word).trans ((if_pos inRange).trans fetched))
  · exact congrArg _ ((submit_running running hg word).trans (if_neg (Nat.not_lt.2 beyond)))
  · rw [readBytes_four s (by decide)]
    simp only [State.readWord, hg]

/-- R145: what RELEASE does with an index of a ring. -/
theorem releases_iff (r : OutRing) (i : Nat) : r.releases i = true ↔ i < r.size
    ∧ (i + r.size - r.consumer) % r.size ≤ (r.producer + r.size - r.consumer) % r.size := decide_eq_true_iff

theorem releaseIndex_eq (word : Word) : releaseIndex word = word.toNat % 2 ^ 16 := by
  simp [releaseIndex, BitVec.extractLsb'_toNat]

theorem releaseSelector_eq (word : Word) : (word.extractLsb' 16 3).toNat = word.toNat / 2 ^ 16 % 8 := by
  rw [BitVec.extractLsb'_toNat, Nat.shiftRight_eq_div_pow]

theorem releaseRing_completion {word : Word} (h : word.toNat / 2 ^ 16 % 8 = 0) :
    releaseRing word = some .completion := by
  unfold releaseRing
  simp only [releaseSelector_eq, h]

theorem releaseRing_event {word : Word} {ring : Fin 4} (h : word.toNat / 2 ^ 16 % 8 = ring.val + 1) :
    releaseRing word = some (.event ring) := by
  unfold releaseRing
  rw [releaseSelector_eq, h]
  match ring with
  | 0 | 1 | 2 | 3 => rfl

theorem releaseRing_none {word : Word} (h : 5 ≤ word.toNat / 2 ^ 16 % 8) : releaseRing word = none := by
  unfold releaseRing
  obtain e | e | e : word.toNat / 2 ^ 16 % 8 = 5 ∨ word.toNat / 2 ^ 16 % 8 = 6 ∨ word.toNat / 2 ^ 16 % 8 = 7 := by omega
  all_goals simp only [releaseSelector_eq, e]

/-- Settles O20, by the ring that the word selects. -/
theorem releaseFreesSlotsOrFaults : Obligations.ReleaseFreesSlotsOrFaults := by
  refine fun s word => ⟨fun other => congrArg _ (release_ignored other word), fun g hg running => ?_⟩
  intro selector i accepts refused
  have index : releaseIndex word = i := releaseIndex_eq word
  have raises : released word g = none → exec (.release word) s = .next refused := fun h =>
    congrArg _ (release_refused running hg h)
  have frees : ∀ g1, released word g = some g1 → exec (.release word) s
      = .next (commandFetch { s with geom := some g1 }) := fun g1 h => congrArg _ (release_accepted running hg h)
  refine ⟨fun h ok => ?_, fun h no => raises ?_, fun ring h => ⟨fun ok => ?_, fun no => raises ?_⟩,
    fun h => raises ?_⟩
  · have new : released word g = some { g with compl := { g.compl with consumer := i } } := by
      simp only [released, releaseRing_completion h, index, (releases_iff _ _).2 ok, if_true]
    let g1 : Geometry := { g with compl := { g.compl with consumer := i } }
    exact (frees g1 new).trans (congrArg _ (commandFetch_cases (s := { s with geom := some g1 }) (g := g1) running rfl))
  · simp only [released, releaseRing_completion h, index]
    exact if_neg fun hr => no ((releases_iff _ _).1 hr)
  · have new : released word g = some (g.setEvent ring { g.event[ring] with consumer := i }) := by
      simp only [released, releaseRing_event h, index, (releases_iff _ _).2 ok, if_true]
    let g1 : Geometry := g.setEvent ring { g.event[ring] with consumer := i }
    exact (frees g1 new).trans (congrArg _ (commandFetch_cases (s := { s with geom := some g1 }) (g := g1) running rfl))
  · simp only [released, releaseRing_event h, index]
    exact if_neg fun hr => no ((releases_iff _ _).1 hr)
  · simp only [released, releaseRing_none h]

/-! ### The interrupt registers and causes (R153, R154) -/

/-- R154: a message is called for when the condition goes from false to true. -/
theorem setIntRegs_rises (cause enable : BitVec 7) (s : State) :
    (!intCondition s.intCause s.intEnable && intCondition cause enable) = true
      ↔ s.intCause &&& s.intEnable = 0 ∧ cause &&& enable ≠ 0 := by
  simp [intCondition]

theorem setIntRegs_message (cause enable : BitVec 7) (s : State) : setIntRegs cause enable s =
    let rises := s.intCause &&& s.intEnable = 0 ∧ cause &&& enable ≠ 0
    { s with
      intCause := cause, intEnable := enable
      intRises := if rises then s.intRises + 1 else s.intRises
      intMessages :=
        if rises ∧ Config.messageInterruptsOn s.intRises = true then s.intMessages + 1 else s.intMessages } := by
  unfold setIntRegs
  dsimp only
  by_cases rises : s.intCause &&& s.intEnable = 0 ∧ cause &&& enable ≠ 0
  · simp only [(setIntRegs_rises cause enable s).2 rises, rises, if_true, true_and, ne_eq, not_false_eq_true]
  · have still := (setIntRegs_rises cause enable s).not.2 rises
    simp only [still, rises, if_false, false_and, Bool.false_eq_true]

/-- Settles O21: both registers and the setting of a cause go through `setIntRegs`. -/
theorem interruptRegistersAndCauses : Obligations.InterruptRegistersAndCauses := by
  refine ⟨fun s word => ⟨fun ready => ?_, fun held => ?_⟩, fun s c => setIntRegs_message _ _ s⟩
  · have notHeld : ¬ s.resetHeld = true := by simp [ready]
    have cause : writeCause word s = setIntRegs (s.intCause &&& ~~~(word.setWidth 7)) s.intEnable s := if_neg notHeld
    have enable : writeEnable word s = setIntRegs s.intCause (word.setWidth 7) s := if_neg notHeld
    exact ⟨congrArg _ (cause.trans (setIntRegs_message _ _ s)), congrArg _ (enable.trans (setIntRegs_message _ _ s))⟩
  · have cause : writeCause word s = s := if_pos held
    have enable : writeEnable word s = s := if_pos held
    exact ⟨congrArg _ cause, congrArg _ enable⟩

end Sys2Proof.Machine
end

section
/-! PROOFS. Commands that are not taken, unknown or out of range (O23), the records the Ring Engine takes (O46), and the writes
into host memory that complete (O47). -/

namespace Sys2Proof.Machine

/-! ### Commands not taken, unknown or out of range (R147, R156, R159) -/

theorem runOffering_not_taken {s : State} {tag : Word} {c : Command} (h : ¬(s.part = .running ∧ s.cmdRead = true))
    (other : ∀ w, s.executing = some w → w.tag ≠ tag ∨ w.command ≠ c) (pause : Option Nat) (x : Execution) :
    runOffering pause tag c x s = s := by
  unfold runOffering
  split
  · exact runCommand_not_taken h _ _ _ _
  · rename_i w hw
    exact if_neg fun same => (other w hw).elim (· same.1) (· same.2)

/-- R156: an execution that is rejected, whole or with other steps to fall inside it, leaves the command's completion
alone. -/
theorem runCommand_rejected {s : State} {g : Geometry} (r : Ready s g) {falls : Falls} {kind : Byte} {tag : Word}
    {x : Execution} {st : Status} (hx : x falls (s.taken g []) = rejected st (s.taken g [])) :
    runCommand falls kind tag x s = s.commandDone g [] (.completion kind tag st 0 0 0) := by
  have alone := runCommand_commandDone r (kind := kind) (tag := tag) (x := whole (rejected st)) (before := [])
    r.running r.free rfl
  rw [← alone]
  simp only [runCommand, takeCommand_ready r, hx]
  rfl

theorem whole_rejected (st : Status) (pause : Option Nat) (s : State) :
    whole (rejected st) (fallsOf pause) s = rejected st s := by
  rcases pause with _ | _ | n <;> rfl

theorem runOffering_rejected {s : State} {g : Geometry} (r : Ready s g) {pause : Option Nat} {tag : Word} {c : Command}
    {x : Execution} {st : Status} (hx : x (fallsOf pause) (s.taken g []) = rejected st (s.taken g [])) :
    runOffering pause tag c x s = s.commandDone g [] (.completion (Command.code c) tag st 0 0 0) := by
  unfold runOffering
  rw [r.free]
  exact runCommand_rejected r hx

theorem refreshExecution_rejected {s : State} {set : Word} (h : ¬ FieldsInRange s (.refresh set)) (tag : Word)
    (pause : Option Nat) (u : State) : refreshExecution tag set (fallsOf pause) u = rejected .invalid u :=
  (if_neg fun ok => h ((refreshInRange_iff s set).1 ok)).trans (whole_rejected .invalid pause u)

theorem routeSetExecution_rejected {s : State} {g : Geometry} (r : Ready s g) {f : RouteSetFields}
    (h : ¬ FieldsInRange s (.routeSet f)) (tag : Word) (pause : Option Nat) :
    routeSetExecution tag f (fallsOf pause) (s.taken g []) = rejected .invalid (s.taken g []) := by
  have out : ¬ routeSetInRange (s.taken g []) f = true := by
    rw [routeSetInRange_iff]
    simpa only [FieldsInRange, ringPresent_taken r.geom] using h
  exact (if_neg out).trans (whole_rejected .invalid pause _)

/-- R156: a command with a field out of range is rejected. -/
theorem executionOf_rejected {s : State} {c : Command} (h : ¬ FieldsInRange s c) (sets : ∀ f, c ≠ .routeSet f)
    (tag : Word) (u : State) : executionOf tag c .nothing u = rejected .invalid u := by
  cases c with
  | unknown kind => exact absurd trivial h
  | routeSet f => exact absurd rfl (sets f)
  | routeClear f => exact if_neg fun ok => h ((routeClearInRange_iff s f).1 ok)
  | routeSuspend source => exact if_neg fun ok => h ((sourceInRange_iff source).1 ok)
  | routeResume source => exact if_neg fun ok => h ((sourceInRange_iff source).1 ok)
  | lineInConfig f => exact if_neg fun ok => h ((lineInInRange_iff s f).1 ok)
  | lineOutConfig f => exact if_neg fun ok => h ((lineOutInRange_iff s f).1 ok)
  | outputSet f => exact if_neg fun ok => h ((outputSetInRange_iff s f).1 ok)
  | schedule f => simp only [executionOf, scheduleExecution, whole, scheduleKind_eq_none h]
  | cancel eventTag => exact absurd trivial h
  | refresh set => exact refreshExecution_rejected h tag none u
  | timeRead => exact absurd trivial h
  | timeSet time => exact if_neg fun ok => h ((timeSetInRange_iff s time).1 ok)
  | linkOpen f => exact if_neg fun ok => h ((linkOpenInRange_iff s f).1 ok)
  | linkClose => exact absurd trivial h
  | quiesce deadline =>
    refine if_pos (BitVec.eq_of_toNat_eq ?_)
    simp only [FieldsInRange] at h
    simp
    omega
  | openIntake => exact absurd trivial h
  | statsRead f => exact if_neg fun ok => h ((statsReadInRange_iff s f).1 ok)
  | faults f => exact if_neg fun ok => h ((faultsInRange_iff s f).1 ok)
  | fence => exact absurd trivial h

/-- The meaning of the step that takes a command of known kind and makes no offers (R147). -/
theorem exec_takeUpTo_whole (pause : Option Nat) (tag : Word) {c : Command} (unknown : ∀ k, c ≠ .unknown k)
    (routeSet : ∀ f, c ≠ .routeSet f) (refresh : ∀ set, c ≠ .refresh set) (s : State) :
    exec (takeUpTo pause tag c) s = .next (runCommand .nothing (Command.code c) tag (executionOf tag c) s) := by
  cases c with
  | unknown k => exact absurd rfl (unknown k)
  | routeSet f => exact absurd rfl (routeSet f)
  | refresh set => exact absurd rfl (refresh set)
  | _ => rfl

/-- R156: a step that takes a command with a field out of range. -/
theorem exec_takeUpTo_rejected {s : State} {g : Geometry} (r : Ready s g) {c : Command} (h : ¬ FieldsInRange s c)
    (pause : Option Nat) (tag : Word) : exec (takeUpTo pause tag c) s
      = .next (s.commandDone g [] (.completion (Command.code c) tag .invalid 0 0 0)) := by
  by_cases unknown : ∃ k, c = .unknown k
  · obtain ⟨k, rfl⟩ := unknown
    exact absurd trivial h
  by_cases routeSet : ∃ f, c = .routeSet f
  · obtain ⟨f, rfl⟩ := routeSet
    exact congrArg _ (runOffering_rejected r (routeSetExecution_rejected r h tag _))
  by_cases refresh : ∃ set, c = .refresh set
  · obtain ⟨set, rfl⟩ := refresh
    exact congrArg _ (runOffering_rejected r (refreshExecution_rejected h tag pause _))
  rw [exec_takeUpTo_whole pause tag (fun k e => unknown ⟨k, e⟩) (fun f e => routeSet ⟨f, e⟩)
    (fun set e => refresh ⟨set, e⟩)]
  exact congrArg _ (runCommand_rejected r (executionOf_rejected h (fun f e => routeSet ⟨f, e⟩) tag _))

/-- Settles O23: what is not taken, what is unknown, and what is out of range. -/
theorem commandsNotTakenOrRejected : Obligations.CommandsNotTakenOrRejected := by
  refine ⟨fun s tag c pause h other => ?_, fun s g tag kind r unknown => ?_,
    fun s g tag c pause r h => exec_takeUpTo_rejected r h pause tag⟩
  · have none : ¬(s.part = .running ∧ s.cmdRead = true) := fun ⟨hp, hr⟩ =>
      h.elim (· hp) fun e => by simp [hr] at e
    obtain ⟨t, ht, hcases⟩ := exec_takeUpTo pause tag c s
    rw [ht]
    rcases hcases with rfl | ⟨kind, rfl⟩ | ⟨p, rfl⟩
    · rfl
    · rw [runCommand_not_taken none]
    · rw [runOffering_not_taken none other]
  · have known : ¬(1 ≤ kind.toNat ∧ kind.toNat ≤ 19) := by omega
    exact congrArg _ ((if_neg known).trans (runCommand_rejected r rfl))

/-! ### Records taken by the Ring Engine (R44, R45, R62, R118, R150 to R152, R183) -/

theorem takeRecord_absent {s : State} {g : Geometry} (hg : s.geom = some g) {ring : Fin 4}
    (absent : g.event[ring].size = 0) (record : HostRecord) : takeRecord ring record s = s := by
  unfold takeRecord
  rw [hg]
  exact if_pos absent

theorem OutRing.post_eq (record : HostRecord) (r : OutRing) : r.post record
    = if r.loss = 0 then r.assignAll [record] else { r.assignAll [.loss r.loss, record] with loss := 0 } := by
  unfold OutRing.post
  split <;> rfl

theorem takeRecord_posted {s : State} {g : Geometry} (hg : s.geom = some g) {ring : Fin 4}
    (present : g.event[ring].size ≠ 0) (free : 2 ≤ g.event[ring].free) (record : HostRecord) :
    takeRecord ring record s = { s with geom := some (g.setEvent ring (g.event[ring].post record)) } := by
  unfold takeRecord
  rw [hg]
  exact (if_neg present).trans (if_pos free)

theorem takeRecord_lost {s : State} {g : Geometry} (hg : s.geom = some g) {ring : Fin 4}
    (present : g.event[ring].size ≠ 0) (full : g.event[ring].free < 2) (record : HostRecord) :
    takeRecord ring record s = { s with
      geom := some (g.setEvent ring { g.event[ring] with loss := bump g.event[ring].loss })
      ringCounters := { s.ringCounters with
        lost := s.ringCounters.lost.set ring (bump s.ringCounters.lost[ring]) }
      raises := if g.event[ring].loss = 0 then s.raises ++ [⟨.ringLoss, BitVec.ofNat 32 ring.val⟩] else s.raises } := by
  unfold takeRecord
  rw [hg]
  refine (if_neg present).trans ((if_neg (by omega)).trans ?_)
  split <;> rfl

/-- R62, R197: the lateness field, saturated at 32 bits. -/
theorem lateness_eq (release time : Nat) : lateness release time
    = if release ≤ time then BitVec.ofNat 32 (min (time - release) (2 ^ 32 - 1))
      else Config.latenessAcrossStep release time := by
  unfold lateness
  by_cases before : time < release
  · rw [if_pos before, if_neg (Nat.not_le.2 before)]
  · rw [if_neg before, if_pos (Nat.not_lt.1 before)]
    by_cases small : time - release < 2 ^ 32
    · rw [if_pos small, Nat.min_eq_left (by omega)]
    · rw [if_neg small, Nat.min_eq_right (by omega)]
      rfl

/-- Settles O46. -/
theorem ringEngineTakesRecordsOfPosters : Obligations.RingEngineTakesRecordsOfPosters := by
  refine ⟨fun s g ring record hg => ⟨fun absent => takeRecord_absent hg absent record, fun present free => ?_,
    fun present full => takeRecord_lost hg present full record⟩, fun s posts => ?_⟩
  · rw [takeRecord_posted hg present free, OutRing.post_eq]
    rfl
  have on := (postsRecords_iff s.part).2 posts
  refine ⟨fun d ring hd named => ?_, fun ring record rest hring => ⟨fun waiting => ?_, fun waiting => ?_⟩⟩
  · simp only [exec, execEventRecordTake, eventRecordTake, on, if_true, hd, named, settle_eq_settled, Delivery.record,
      lateness_eq]
    rfl
  · simp only [exec, execEventRecordTake, eventRecordTake, on, if_true, hring, waiting]
  · simp only [exec, execEventRecordTake, eventRecordTake, on, if_true, hring, waiting]

/-! ### Writes that complete, and what follows them (R146, R149, R150, R153, R177) -/

/-- R136: where the part posts no records, the writes of its run do not complete. -/
theorem recordWriteDone_ignored {s : State} (hr : s.part ≠ .running) (hs : s.part ≠ .stopping) {target : WriteTarget}
    (run : ∀ index, target ≠ .issued index) : recordWriteDone target s = s := by
  have off : postsRecords s.part = false :=
    Bool.eq_false_iff.2 fun on => ((postsRecords_iff s.part).1 on).elim hr hs
  cases target with
  | issued index => exact absurd rfl (run index)
  | _ => simp only [recordWriteDone, off, Bool.false_eq_true, if_false]

theorem completionWritten_some {s : State} {g : Geometry} {w : RingWrite} {rest : List RingWrite}
    (hg : s.geom = some g) (hw : g.compl.writes = w :: rest) :
    completionWritten s = makeIndexWrite .completion (g.compl.written w rest).producer
      (writeHost (g.compl.slotAddress w.slot) w.record.bytes
        { s with geom := some { g with compl := g.compl.written w rest } }) := by
  simp only [completionWritten, hg, hw]

theorem completionWritten_none {s : State} {g : Geometry} (hg : s.geom = some g) (hw : g.compl.writes = []) :
    completionWritten s = s := by
  simp only [completionWritten, hg, hw]

theorem eventWritten_some {s : State} {g : Geometry} {ring : Fin 4} {w : RingWrite} {rest : List RingWrite}
    (hg : s.geom = some g) (hw : g.event[ring].writes = w :: rest) :
    eventWritten ring s = makeIndexWrite (.event ring) (g.event[ring].written w rest).producer
      (writeHost (g.event[ring].slotAddress w.slot) w.record.bytes
        { s with geom := some (g.setEvent ring (g.event[ring].written w rest)) }) := by
  simp only [eventWritten, hg, hw]

theorem eventWritten_none {s : State} {g : Geometry} {ring : Fin 4} (hg : s.geom = some g)
    (hw : g.event[ring].writes = []) : eventWritten ring s = s := by
  simp only [eventWritten, hg, hw]

/-- R146: the oldest write of an index field completes, wherever the other fields' writes stand. -/
theorem indexWritten_some {s : State} {g : Geometry} (hg : s.geom = some g) {field : IndexField}
    {before after : List IndexWrite} {value : Nat} (hw : s.indexWrites = before ++ ⟨field, value⟩ :: after)
    (oldest : ∀ w ∈ before, w.field ≠ field) :
    indexWritten field s = indexShown field (writeIndex g.status (indexOffset field) value
      { s with indexWrites := before ++ after }) := by
  have found : s.indexWrites.find? (·.field == field) = some ⟨field, value⟩ := by
    rw [hw, List.find?_append, List.find?_eq_none.2 fun w h => by simpa using oldest w h]
    simp
  have left : s.indexWrites.eraseP (·.field == field) = before ++ after := by
    rw [hw, List.eraseP_append_right _ fun w h => by simpa using oldest w h, List.eraseP_cons_of_pos (by simp)]
  simp only [indexWritten, hg, found, left]

theorem indexWritten_none {s : State} {field : IndexField} (none : ∀ w ∈ s.indexWrites, w.field ≠ field) :
    indexWritten field s = s := by
  have found : s.indexWrites.find? (·.field == field) = .none := List.find?_eq_none.2 fun w h => by simpa using none w h
  simp only [indexWritten, found]
  split
  · contradiction
  · rfl

/-- R177: the STATS_READ in flight counts the bytes of a buffer write as written. -/
def countBuffer (job : Option StatsJob) (length : Nat) (d : Deferred) : Deferred :=
  match d.job, job with
  | .statsRead _, some j => { d with job := .statsRead { j with written := j.written + length } }
  | _, _ => d

theorem bufferWritten_some {s : State} {w : BufferWrite} {rest : List BufferWrite} (hw : s.bufWrites = w :: rest) :
    bufferWritten s = { s with
      hostMem := Memory.writeBytes s.hostMem w.address w.bytes
      bufWrites := rest
      deferred := s.deferred.map (countBuffer (statsJob s) w.bytes.length) } := by
  simp only [bufferWritten, hw]
  rcases statsJob s with _ | j
  · have same : s.deferred.map (countBuffer none w.bytes.length) = s.deferred :=
      List.map_id'' (fun d => by rcases d with ⟨tag, _ | _ | _ | _⟩ <;> rfl) _
    rw [same]
    rfl
  · have jobs : ∀ d : Deferred, countBuffer (some j) w.bytes.length d = (match d.job with
        | .statsRead _ => { d with job := .statsRead { j with written := j.written + w.bytes.length } }
        | .linkOpen | .quiesce _ _ | .fence _ _ => d) := fun d => by
      rcases d with ⟨tag, _ | _ | _ | _⟩ <;> rfl
    simp only [funext jobs]
    rfl

theorem BufferWrite.apart_iff (w v : BufferWrite) : w.apart v = true
    ↔ w.address + w.bytes.length ≤ v.address ∨ v.address + v.bytes.length ≤ w.address := decide_eq_true_iff

/-- Settles O47, target by target. -/
theorem recordWriteCompletes : Obligations.RecordWriteCompletes := by
  refine ⟨fun s g posts hg => ?_, fun s target hr hs run => congrArg _ (recordWriteDone_ignored hr hs run),
    fun s index => ⟨fun w hw => ⟨fun free => ?_, fun blocked => ?_⟩, fun beyond => ?_⟩⟩
  · have on := (postsRecords_iff s.part).2 posts
    have completion : recordWriteDone .completionRing s = completionWritten s := if_pos on
    have event : ∀ ring, recordWriteDone (.eventRing ring) s = eventWritten ring s := fun _ => if_pos on
    have index : ∀ field, recordWriteDone (.index field) s = indexWritten field s := fun _ => if_pos on
    have stats : recordWriteDone .statsBuffer s = bufferWritten s := if_pos on
    refine ⟨fun w rest hw => ?_, fun hw => ?_, fun ring w rest hw => ?_, fun ring hw => ?_,
      fun field before after value hw oldest => ?_, fun field none => ?_, fun w rest hw => ?_, fun hw => ?_⟩
    · exact congrArg _ (completion.trans (completionWritten_some hg hw))
    · exact congrArg _ (completion.trans (completionWritten_none hg hw))
    · exact congrArg _ ((event ring).trans (eventWritten_some hg hw))
    · exact congrArg _ ((event ring).trans (eventWritten_none hg hw))
    · have written := (index field).trans (indexWritten_some hg hw oldest)
      refine ⟨?_, ?_, fun ring => ?_⟩
      all_goals
        rintro rfl
        exact congrArg _ written
    · exact congrArg _ ((index field).trans (indexWritten_none none))
    · exact congrArg _ (stats.trans (bufferWritten_some hw))
    · refine congrArg _ (stats.trans ?_)
      simp only [bufferWritten, hw]
  · have all : (s.issued.take index).all w.apart = true :=
      List.all_eq_true.2 fun v hv => (w.apart_iff v).2 (free v hv)
    simp only [exec, execRecordWriteDone, recordWriteDone, issuedWritten, hw, all, if_true,
      List.eraseIdx_eq_take_drop_succ]
    rfl
  · have notAll : ¬ (s.issued.take index).all w.apart = true := fun all =>
      blocked fun v hv => (w.apart_iff v).1 (List.all_eq_true.1 all v hv)
    simp only [exec, execRecordWriteDone, recordWriteDone, issuedWritten, hw, notAll, Bool.false_eq_true, if_false]
  · simp only [exec, execRecordWriteDone, recordWriteDone, issuedWritten, List.getElem?_eq_none beyond]

end Sys2Proof.Machine
end

section
/-! PROOFS. STOP and the end of STOPPING (O16), and a STOP inside the execution of a command (O17). -/

namespace Sys2Proof.Machine

/-! ### Offers that reach the intake after STOP or the entry to HALTED (R7, R83) -/

/-- Log entry 10: the step of the producer whose offer comes late. -/
def producerOf : LateOffer → Instr
  | .edge n => .filterAccept n
  | .unfiltered n level => .rawChange n level
  | .catchUp n => .spacingEnd n
  | .announce => .rxEcho 0 0 0 0 (.announce (some 1))
  | .frame f => .rxEvent f

theorem exec_producerOf {s : State} (running : s.part = .running) (x : LateOffer) :
    exec (producerOf x) s = .next (offerLate x s) := by
  cases x with
  | edge n | unfiltered n level | catchUp n | frame f => rfl
  | announce => exact exec_announce_running running 0 0 0 0 (some 1)

theorem ite_intakeOpen {c : Prop} [Decidable c] {s t u : State} (ht : t.intakeOpen = s.intakeOpen)
    (hu : u.intakeOpen = s.intakeOpen) : (if c then t else u).intakeOpen = s.intakeOpen := by
  split
  · exact ht
  · exact hu

theorem offerEvent_intakeOpen (e : Event) (s : State) : (offerEvent e s).intakeOpen = s.intakeOpen := by
  rw [offerEvent_eq]

theorem offerEdge_intakeOpen (n : Fin 16) (l : InputLine) (e : Event) (level : Level) (window : Option Nat) (s : State) :
    (offerEdge n l e level window s).intakeOpen = s.intakeOpen := by
  unfold offerEdge
  split
  · exact offerEvent_intakeOpen e s
  · rfl
  · rfl

theorem acceptChange_intakeOpen (n : Fin 16) (l : InputLine) (stamp : Nat) (s : State) :
    (acceptChange n l stamp s).intakeOpen = s.intakeOpen :=
  ite_intakeOpen (ite_intakeOpen rfl (offerEdge_intakeOpen ..)) rfl

theorem rawChange_intakeOpen (n : Fin 16) (level : Level) (s : State) :
    (rawChange n level s).intakeOpen = s.intakeOpen := by
  refine ite_intakeOpen rfl (ite_intakeOpen ?_ rfl)
  split
  · rfl
  · exact ite_intakeOpen (acceptChange_intakeOpen ..) rfl

theorem filterAccept_intakeOpen (n : Fin 16) (s : State) : (filterAccept n s).intakeOpen = s.intakeOpen := by
  unfold filterAccept
  dsimp only
  split
  · rfl
  · exact ite_intakeOpen (acceptChange_intakeOpen ..) rfl

theorem spacingEnd_intakeOpen (n : Fin 16) (s : State) : (spacingEnd n s).intakeOpen = s.intakeOpen := by
  unfold spacingEnd
  dsimp only
  split
  · rfl
  · refine ite_intakeOpen ?_ rfl
    split
    · rfl
    · exact offerEdge_intakeOpen ..

theorem announceLine_intakeOpen (n : Fin 16) (s : State) : (announceLine n s).intakeOpen = s.intakeOpen := by
  refine ite_intakeOpen rfl ?_
  split
  · rw [offerState_only]
  · rfl
  · rfl

theorem announceNext_one_intakeOpen (s : State) : (announceNext 1 s).intakeOpen = s.intakeOpen := by
  simp only [announceNext]
  split
  · rfl
  · exact announceLine_intakeOpen _ _

theorem takeExpected_intakeOpen (f : RxEventFields) (kind : EventKind) (s : State) :
    (takeExpected f kind s).intakeOpen = s.intakeOpen := by
  unfold takeExpected
  split
  · exact offerEvent_intakeOpen _ _
  · rfl
  · rfl

theorem takeEvent_intakeOpen (f : RxEventFields) (s : State) : (takeEvent f s).intakeOpen = s.intakeOpen := by
  unfold takeEvent
  split
  · exact ite_intakeOpen rfl rfl
  · exact ite_intakeOpen (ite_intakeOpen (takeExpected_intakeOpen ..) (ite_intakeOpen rfl rfl)) rfl

theorem settle_intakeOpen (s : State) : (settle s).intakeOpen = s.intakeOpen := by
  rw [settle_eq_settled]
  exact ite_intakeOpen rfl rfl

/-- R7: a producer's offer neither opens nor closes the intake. -/
theorem offerLate_intakeOpen (x : LateOffer) (s : State) : (offerLate x s).intakeOpen = s.intakeOpen := by
  cases x with
  | edge n => exact filterAccept_intakeOpen n s
  | unfiltered n level => exact rawChange_intakeOpen n level s
  | catchUp n => exact spacingEnd_intakeOpen n s
  | announce => exact announceNext_one_intakeOpen s
  | frame f => exact ite_intakeOpen rfl ((settle_intakeOpen _).trans (takeEvent_intakeOpen f (arrived s)))

theorem offerLate_part (x : LateOffer) (s : State) : (offerLate x s).part = s.part := by
  cases x with
  | edge n => exact congrArg RingFrame.part (filterAccept_keepsRings n s).frame
  | unfiltered n level => exact congrArg RingFrame.part (rawChange_keepsRings n level s).frame
  | catchUp n => exact congrArg RingFrame.part (spacingEnd_keepsRings n s).frame
  | announce => exact announceNext_one_part s
  | frame f => exact congrArg RingFrame.part (receive_keepsRings (takeEvent_keepsRings f) s).frame

/-- R7, R83: the first late offer is its producer's own step on the closed intake. -/
theorem offersLate_cons {s u : State} {x : LateOffer} (running : s.part = .running)
    (step : exec (producerOf x) { s with intakeOpen := false } = .next u) (late : List LateOffer) :
    u.part = .running ∧ offersLate (x :: late) s = offersLate late u := by
  obtain rfl : offerLate x { s with intakeOpen := false } = u :=
    Host.Outcome.next.inj ((exec_producerOf (s := { s with intakeOpen := false }) running x).symm.trans step)
  have closed := offerLate_intakeOpen x { s with intakeOpen := false }
  refine ⟨(offerLate_part x _).trans running, ?_⟩
  simp only [offersLate, List.foldl_cons]
  refine congrArg (fun t : State => late.foldl (fun t x => offerLate x t) t) ?_
  generalize offerLate x { s with intakeOpen := false } = u at closed
  cases u
  cases closed
  rfl

theorem enterStopping_cons {s u : State} {x : LateOffer} (running : s.part = .running)
    (step : exec (producerOf x) { s with intakeOpen := false } = .next u) (late : List LateOffer) :
    u.part = .running ∧ enterStopping (x :: late) s = enterStopping late u := by
  obtain ⟨part, same⟩ := offersLate_cons running step late
  exact ⟨part, by simp only [enterStopping, same]⟩

theorem enterHalted_cons {s u : State} {x : LateOffer} (running : s.part = .running)
    (step : exec (producerOf x) { s with intakeOpen := false } = .next u) (late : List LateOffer) :
    u.part = .running ∧ enterHalted (x :: late) s = enterHalted late u := by
  obtain ⟨part, same⟩ := offersLate_cons running step late
  exact ⟨part, by simp only [enterHalted, same]⟩

/-! ### The entry to STOPPING (R140) -/

theorem intakeLoad_eq (s : State) : intakeLoad s = s.intake.length + s.decisions := by
  unfold intakeLoad underDecision State.decisions
  cases s.deciding <;> cases s.handover <;> rfl

/-- R140: the completion of a deferred command that a STOP aborts. -/
theorem abortedRecord_eq (s : State) (d : Deferred) : abortedRecord s d
    = .completion d.job.kind.commandCode d.tag .aborted (abortWords s d.job).1 (abortWords s d.job).2.1
        (abortWords s d.job).2.2 := by
  rcases d with ⟨tag, _ | _ | _ | _⟩
  case quiesce => simp only [abortedRecord, abortWords, intakeLoad_eq, DeferredKind.commandCode, Job.kind]
  all_goals rfl

theorem abortedRecord_geom (s : State) (geom : Option Geometry) :
    abortedRecord { s with geom := geom } = abortedRecord s := by
  funext d
  rcases d with ⟨tag, _ | _ | _ | _⟩ <;> rfl

theorem abortOne_complete (s : State) (d : Deferred) :
    abortOne s d = { s with geom := s.geom.map (Geometry.complete [abortedRecord s d]) } := by
  unfold abortOne
  rw [handCompletion_complete, abortedRecord_eq]

theorem foldl_abortOne (ds : List Deferred) (s : State) :
    ds.foldl abortOne s = { s with geom := s.geom.map (Geometry.complete (ds.map (abortedRecord s))) } := by
  induction ds generalizing s with
  | nil => cases s; simp [map_complete_nil]
  | cons d ds ih =>
    have same := abortedRecord_geom s (s.geom.map (Geometry.complete [abortedRecord s d]))
    rw [List.foldl_cons, abortOne_complete, ih, same, List.map_cons]
    simp only [Geometry.map_complete_complete, List.singleton_append]

/-- R140: the deferred commands complete ABORTED in the order taken. -/
theorem abortDeferred_complete (s : State) : abortDeferred s = { s with
    geom := s.geom.map (Geometry.complete (s.deferred.map (abortedRecord s))), deferred := [] } := by
  unfold abortDeferred
  rw [foldl_abortOne]

theorem noticeRing_complete (s : State) (records : List HostRecord) :
    noticeRing { s with geom := s.geom.map (Geometry.complete records), deferred := [] } = noticeRing s := by
  unfold noticeRing
  cases s.geom <;> rfl

/-- R116: with no LINK_OPEN in flight the session closes with a notice and nothing more. -/
theorem closeAtStop_idle {s : State} (h : s.deferred = []) : closeAtStop s = { s with
    link := if s.link.session = .closed then s.link else s.link.ended .closed .stop true
    linkNotices :=
      if s.link.session ≠ .closed ∧ (noticeRing s).isSome then
        s.linkNotices ++ [.link .closed .stop s.link.own s.link.recorded s.localTime]
      else s.linkNotices } := by
  unfold closeAtStop
  by_cases closed : s.link.session = .closed
  · simp only [closed, if_true, ne_eq, not_true, false_and, if_false]
  · rw [if_neg closed, enterClosed_transition]
    have own : (s.link.ended .closed .stop true).own = s.link.own := by unfold Link.ended; split <;> rfl
    have recorded : (s.link.ended .closed .stop true).recorded = s.link.recorded := by unfold Link.ended; split <;> rfl
    simp [State.transition, closed, linkOpenRecord, inFlight, findDeferred, h, own, recorded, map_complete_nil]

/-- R140: with no offer that comes late, the part at entry to STOPPING. -/
theorem enterStopping_stopped (s : State) : enterStopping [] s = { s.stopped with
    geom := s.geom.map (Geometry.complete (s.deferred.map (abortedRecord s))) } := by
  have records : s.deferred.map (abortedRecord { s with intakeOpen := false }) = s.deferred.map (abortedRecord s) :=
    List.map_congr_left fun d _ => by rcases d with ⟨tag, _ | _ | _ | _⟩ <;> rfl
  unfold enterStopping offersLate
  rw [List.foldl_nil, abortDeferred_complete, closeAtStop_idle rfl, noticeRing_complete]
  simp only [records, endPulses, resetCapture_stable, discardEvents, intakeLoad_eq]
  rfl

/-! ### The end of STOPPING (R140, R147) -/

theorem noRingWrites_iff (s : State) : noRingWrites s = true ↔
    (∀ w ∈ s.indexWrites, w.field = .command)
      ∧ ∀ g, s.geom = some g → g.compl.writes = [] ∧ ∀ ring : Fin 4, g.event[ring].writes = [] := by
  unfold noRingWrites
  cases hg : s.geom with
  | none => simp
  | some g => simp

theorem stoppingDone_iff (s : State) : stoppingDone s = true ↔
    s.part = .stopping ∧ s.executing = none ∧ s.deferred = [] ∧ s.delivery = none ∧ s.bufWrites = []
      ∧ (∀ g, s.geom = some g → g.compl.writes = [] ∧ ∀ ring : Fin 4, g.event[ring].writes = [])
      ∧ s.faultNotices = [] ∧ s.linkNotices = [] ∧ ∀ w ∈ s.indexWrites, w.field = .command := by
  simp only [stoppingDone, Bool.and_eq_true, noRingWrites_iff, beq_iff_eq, Option.isNone_iff_eq_none, List.isEmpty_iff]
  tauto

/-- R147: with no write of the command consumer index made and not completed there is nothing to complete. -/
theorem commandIndexWritten_none {s : State} (none : ∀ w ∈ s.indexWrites, w.field ≠ .command) :
    commandIndexWritten s = s := by
  have first : s.indexWrites.filter (fun w => w.field == .command) = [] := by simpa using none
  have others : s.indexWrites.filter (fun w => !(w.field == .command)) = s.indexWrites := by simpa using none
  unfold commandIndexWritten
  split
  · rfl
  · simp only [first, others, List.foldl_nil]

/-- R146, R147: the writes of the command consumer index complete in the order made: the oldest, and then the rest. -/
theorem commandIndexWritten_oldest {s : State} {g : Geometry} (hg : s.geom = some g) {before after : List IndexWrite}
    {value : Nat} (hw : s.indexWrites = before ++ ⟨.command, value⟩ :: after) (oldest : ∀ w ∈ before, w.field ≠ .command) :
    commandIndexWritten s = commandIndexWritten (indexWritten .command s) := by
  have first : before.filter (fun w => w.field == .command) = [] := by simpa using oldest
  rw [indexWritten_some hg hw oldest]
  simp only [commandIndexWritten, indexShown, writeIndex_geom, hg, writeIndex_indexWrites, hw, List.filter_append, first,
    List.filter_cons, List.nil_append, beq_self_eq_true, if_true, List.foldl_cons, Bool.not_true, Bool.false_eq_true,
    if_false]
  rfl

/-- R146: the oldest of the writes of a field. -/
theorem oldest_write {field : IndexField} {ws : List IndexWrite} (made : ∃ w ∈ ws, w.field = field) :
    ∃ before value after, ws = before ++ ⟨field, value⟩ :: after ∧ ∀ w ∈ before, w.field ≠ field := by
  induction ws with
  | nil => simp at made
  | cons w ws ih =>
    by_cases here : w.field = field
    · obtain ⟨_, value⟩ := w
      obtain rfl := here
      exact ⟨[], value, ws, rfl, by simp⟩
    · obtain ⟨before, value, after, rfl, oldest⟩ := ih (by simpa [here] using made)
      exact ⟨w :: before, value, after, rfl, by simpa [here] using oldest⟩

theorem recordWriteDone_index {s : State} (posts : s.part = .running ∨ s.part = .stopping) (field : IndexField) :
    recordWriteDone (.index field) s = indexWritten field s := if_pos ((postsRecords_iff s.part).2 posts)

/-- Log entry 40: a write of the command consumer index that completes on its own, or with the end of STOPPING. -/
theorem stoppingEnd_write {s : State} (done : stoppingDone s = true) (made : s.indexWrites ≠ []) (held : s.geom ≠ none) :
    stoppingEnd s = stoppingEnd (recordWriteDone (.index .command) s) := by
  obtain ⟨g, hg⟩ := Option.ne_none_iff_exists'.1 held
  obtain ⟨stopping, executing, deferred, delivery, bufWrites, written, faults, links, command⟩ := (stoppingDone_iff s).1 done
  obtain ⟨⟨field, value⟩, rest, hw⟩ := List.exists_cons_of_ne_nil made
  obtain rfl : field = .command := command ⟨field, value⟩ (by simp [hw])
  have next := commandIndexWritten_oldest (before := []) hg hw (by simp)
  have after := indexWritten_some (before := []) hg hw (by simp)
  rw [recordWriteDone_index (.inr stopping)]
  have done' : stoppingDone (indexWritten .command s) = true := by
    rw [after]
    exact (stoppingDone_iff _).2 ⟨stopping, executing, deferred, delivery, bufWrites, written, faults, links,
      fun w h => command w (by rw [hw]; exact List.mem_cons_of_mem _ h)⟩
  simp only [stoppingEnd, done, done', if_true, next]

/-! ### Late offers of a line, refused (R7, R75) -/

/-- R71, R140: of a line's capture state the entry to STOPPING keeps its setting, its raw level and its counters. -/
theorem enterStopping_line (s : State) (n : Fin 16) {l l' : InputLine} (same : l'.stable = l.stable) :
    enterStopping [] { s with inputs := s.inputs.set n l', intakeOpen := false }
      = enterStopping [] { s with inputs := s.inputs.set n l } := by
  have records (inputs : Vector InputLine 16) (b : Bool) :
      abortedRecord { s with inputs := inputs, intakeOpen := b } = abortedRecord s := by
    funext d
    rcases d with ⟨tag, _ | _ | _ | _⟩ <;> rfl
  have lines : (Vector.ofFn fun m : Fin 16 => (s.inputs.set n l')[m].stable)
      = Vector.ofFn fun m : Fin 16 => (s.inputs.set n l)[m].stable := by
    refine congrArg Vector.ofFn (funext fun m => ?_)
    by_cases h : m = n
    · subst h
      simpa using same
    · have : ¬ n.val = m.val := fun e => h (Fin.ext e.symm)
      simp [this]
  have h1 := records (s.inputs.set n l') false
  have h2 := records (s.inputs.set n l) s.intakeOpen
  rw [enterStopping_stopped, enterStopping_stopped]
  simp only [State.stopped, lines]
  rw [h1, h2]
  rfl

theorem exec_stop {s : State} (running : s.part = .running) (late : List LateOffer) :
    exec (.stop none late) s = .next (enterStopping late s) := congrArg Host.Outcome.next (if_pos running)

theorem exec_stop_cons {s u : State} {x : LateOffer} (running : s.part = .running)
    (step : exec (producerOf x) { s with intakeOpen := false } = .next u) (late : List LateOffer) :
    exec (.stop none (x :: late)) s = exec (.stop none late) u := by
  obtain ⟨part, same⟩ := enterStopping_cons running step late
  rw [exec_stop running, exec_stop part, same]

/-- R75: a line offers an edge or a catch-up event behind the STOP, and the refusal is counted. -/
theorem exec_stop_refused {s : State} (running : s.part = .running) {x : LateOffer} {n : Fin 16} {l l' : InputLine}
    {e : Event} {level : Level} {window : Option Nat}
    (offer : offerLate x { s with intakeOpen := false } = offerEdge n l e level window { s with intakeOpen := false })
    (same : ({ l with counters := { l.counters with refusedClosed := bump l.counters.refusedClosed } } : InputLine).stable
      = l'.stable) :
    exec (.stop none [x]) s = exec (.stop none []) { s with inputs := s.inputs.set n l' } := by
  have step := exec_producerOf (s := { s with intakeOpen := false }) running x
  rw [offer, offerEdge_closed n l e level window rfl] at step
  refine (exec_stop_cons running step []).trans ((exec_stop (by exact running) []).trans ?_)
  exact (congrArg Host.Outcome.next (enterStopping_line s n same)).trans (exec_stop (by exact running) []).symm

/-- R73, R83: an acceptance that comes late is refused and counted. -/
theorem exec_stop_edge {s : State} (running : s.part = .running) {x : LateOffer} {n : Fin 16} {l : InputLine}
    {start : Nat} (offer : offerLate x { s with intakeOpen := false } = acceptChange n l start { s with intakeOpen := false })
    (selected : l.config.mode.selects l.raw = true) (window : l.spacingEnd = none) :
    exec (.stop none [x]) s = exec (.stop none []) { s with inputs := s.inputs.set n { l with
      counters := { l.counters with refusedClosed := bump l.counters.refusedClosed } } } :=
  exec_stop_refused running (offer.trans (acceptChange_offered start _ selected window)) rfl

/-- R73: with F = 0 a raw change of a line that filters is accepted now. -/
theorem rawChange_acceptChange {s : State} {n : Fin 16} {level : Level} (running : s.part = .running)
    (mode : s.inputs[n].config.mode ≠ .off) (differs : s.inputs[n].raw ≠ level) (candidate : s.inputs[n].candidate = none)
    (filter : s.inputs[n].config.filter = 0) :
    rawChange n level s = acceptChange n { s.inputs[n] with raw := level } s.localTime s := by
  have watches : filters s s.inputs[n] = true := (filters_iff s _).2 ⟨running, mode⟩
  simp only [rawChange, if_neg differs, watches, if_true, candidate, if_pos filter]

theorem InMode.selects_on {m : InMode} {level : Level} (h : m.selects level = true) : m ≠ .off := by
  rintro rfl
  cases h

/-- Settles O16: the state at entry to STOPPING, the offers that come late one by one, and the end of STOPPING. -/
theorem stopEntersStoppingWhichEndsInIdle : Obligations.StopEntersStoppingWhichEndsInIdle := by
  unfold Obligations.StopEntersStoppingWhichEndsInIdle
  refine ⟨fun s => ⟨fun running => ?_, fun o late running reads => ?_, fun during late running => ?_⟩,
    fun s u n level f late running => ?_, fun s n running => ?_, fun s => ?_⟩
  · exact (exec_stop running []).trans (congrArg Host.Outcome.next (enterStopping_stopped s))
  · refine congrArg Host.Outcome.next ((if_pos running).trans (Eq.trans ?_ (if_pos running).symm))
    exact if_neg (Bool.eq_false_iff.1 reads)
  · exact congrArg Host.Outcome.next (if_neg running)
  · exact ⟨fun step => exec_stop_cons (x := .edge n) running step late,
      fun step => exec_stop_cons (x := .unfiltered n level) running step late,
      fun step => exec_stop_cons (x := .catchUp n) running step late,
      fun step => exec_stop_cons (x := .announce) running step late,
      fun step => exec_stop_cons (x := .frame f) running step late⟩
  · dsimp only
    simp only [← InMode.selects_iff]
    refine ⟨fun start candidate due selected window => ?_, fun level differs selected candidate filter window => ?_,
      fun finish window due suppressed mode differs => ?_⟩
    · exact exec_stop_edge running (filterAccept_due (s := { s with intakeOpen := false }) candidate due) selected window
    · have offer : offerLate (.unfiltered n level) { s with intakeOpen := false }
          = acceptChange n { s.inputs[n] with raw := level } s.localTime { s with intakeOpen := false } :=
        rawChange_acceptChange running (InMode.selects_on selected) differs candidate filter
      exact exec_stop_edge (l := { s.inputs[n] with raw := level }) running offer selected window
    · have states := catchUpLevel_due ⟨suppressed, mode, differs⟩
      exact exec_stop_refused running (x := .catchUp n)
        (spacingEnd_catchUp (s := { s with intakeOpen := false }) window due states) rfl
  · simp only [← stoppingDone_iff]
    refine ⟨fun done none => ?_, fun u done made held step => ?_, fun rest => congrArg Host.Outcome.next (if_neg rest)⟩
    · refine congrArg Host.Outcome.next ((if_pos done).trans ?_)
      rw [commandIndexWritten_none (by simp [none])]
    · obtain rfl : recordWriteDone (.index .command) s = u := Host.Outcome.next.inj step
      exact congrArg Host.Outcome.next (stoppingEnd_write done made held)

/-! ### A STOP inside the execution of a command (R140, R160) -/

/-- R140, R160: a STOP has fallen inside the execution of a command taken from `g`, which had left `u`, and `records` are
handed over behind the commands aborted. -/
def State.stoppedTaken (g : Geometry) (records : List HostRecord) (u : State) : State :=
  State.taken g (u.deferred.map (abortedRecord u) ++ records) u.stopped

theorem abortedRecord_taken (g : Geometry) (before : List HostRecord) (u : State) :
    abortedRecord (u.taken g before) = abortedRecord u := by
  funext d
  rcases d with ⟨tag, _ | _ | _ | _⟩ <;> rfl

theorem noticeRing_taken {u : State} {g : Geometry} (hg : u.geom = some g) (before : List HostRecord) :
    noticeRing (u.taken g before) = noticeRing u := by
  unfold noticeRing
  rw [hg]
  rfl

theorem enterStopping_taken {u : State} {g : Geometry} (hg : u.geom = some g) :
    enterStopping [] (u.taken g []) = u.stoppedTaken g [] := by
  rw [enterStopping_stopped, abortedRecord_taken]
  unfold State.stopped
  rw [noticeRing_taken hg]
  simp only [State.stoppedTaken, State.taken, State.stopped, List.append_nil]
  rfl

/-- R116: after a STOP the session is CLOSED. -/
theorem stopped_session (u : State) : u.stopped.link.session = .closed := by
  unfold State.stopped
  dsimp only
  split
  · assumption
  · exact Link.ended_session ..

theorem stopped_own (u : State) : u.stopped.link.own = u.link.own := by
  unfold State.stopped
  dsimp only
  split
  · rfl
  · unfold Link.ended
    split <;> rfl

theorem abortDeferred_idle {s : State} (h : s.deferred = []) : abortDeferred s = s := by
  rw [abortDeferred_complete, h]
  simp only [List.map_nil, map_complete_nil]
  rw [← h]

/-- R140: an execution that leaves no deferred command in flight and the session CLOSED aborts nothing at its end. -/
theorem abortLeftovers_none {s : State} (h : s.deferred = []) (closed : s.link.session = .closed) :
    abortLeftovers s = s := by
  unfold abortLeftovers
  rw [abortDeferred_idle h, closeAtStop, if_pos closed, ite_self]

theorem commandFetch_stopping {s : State} (h : s.part = .stopping) : commandFetch s = s := by
  have fetch : mayFetch s = false := by
    unfold mayFetch
    split
    · rfl
    · simp [h]
  rw [commandFetch, fetch]
  rfl

theorem needsSettle_idle {s : State} (h : s.deferred = []) : needsSettle s = false := by
  simp [needsSettle, quiesceReady, fenceReady, findDeferred, h]

/-- R157, R160: a command inside whose execution a STOP has fallen completes behind the commands aborted. -/
theorem answerCommand_stopped (g : Geometry) (u : State) (kind : Byte) (tag : Word) (st : Status) (w1 w2 w3 : Word) :
    answerCommand kind tag (.done st w1 w2 w3) (u.stoppedTaken g [])
      = u.stoppedTaken g [.completion kind tag st w1 w2 w3] := by
  have idle : needsSettle (u.stoppedTaken g []) = false := needsSettle_idle rfl
  simp only [answerCommand, finishImmediate, idle, Bool.false_eq_true, if_false]
  simp only [State.stoppedTaken, handCompletion_taken, List.append_nil]

/-- R140, R160: nothing more is aborted, and no further command is read. -/
theorem stoppedTaken_ends (g : Geometry) (records : List HostRecord) (u : State) :
    commandFetch (abortLeftovers (u.stoppedTaken g records)) = u.stoppedTaken g records := by
  rw [abortLeftovers_none (s := u.stoppedTaken g records) rfl (stopped_session u), commandFetch_stopping rfl]

theorem exec_stop_during {s : State} {g : Geometry} (r : Ready s g) (tag : Word) (c : Command) (n : Nat) :
    let x := executionOf tag c (.stop n []) (s.taken g [])
    exec (.stop (some ⟨tag, c, n⟩) []) s
      = .next (commandFetch (abortLeftovers (answerCommand (Command.code c) tag x.2 x.1))) := by
  refine congrArg Host.Outcome.next ((if_pos r.running).trans ((if_pos r.reading).trans ?_))
  rw [runCommand, if_pos ⟨r.running, r.reading⟩, takeCommand_ready r]

/-- R140, R160: the execution leaves `u`, the STOP falls behind it, and the command completes. -/
theorem exec_stop_done {s : State} {g : Geometry} (r : Ready s g) {tag : Word} {c : Command} {n : Nat} (u : State)
    {st : Status} {w1 w2 w3 : Word}
    (executed : executionOf tag c (.stop n []) (s.taken g []) = (u.stoppedTaken g [], .done st w1 w2 w3)) :
    exec (.stop (some ⟨tag, c, n⟩) []) s = .next (u.stoppedTaken g [.completion (Command.code c) tag st w1 w2 w3]) := by
  rw [exec_stop_during r, executed, answerCommand_stopped, stoppedTaken_ends]

/-! #### SCHEDULE -/

section
variable {s : State} {g : Geometry} (r : Ready s g) (tag : Word) {f : ScheduleFields} {kind : EventKind}
  (inRange : scheduleKind f = some kind)
include r inRange

theorem schedule_stopped_before : exec (.stop (some ⟨tag, .schedule f, 0⟩) []) s
    = .next (s.stoppedTaken g [.completion 0x08 tag .closed 0 0 0]) := by
  refine exec_stop_done r (c := .schedule f) s ?_
  have closed : offerAnswer (s.stoppedTaken g []) = .closed := (offerAnswer_closed_iff _).2 rfl
  simp only [executionOf, scheduleExecution, whole, inRange, enterStopping_taken r.geom, closed]

theorem schedule_stopped_accepted (n : Nat) (hopen : s.intakeOpen = true) (room : s.intake.length < 64) :
    exec (.stop (some ⟨tag, .schedule f, n + 1⟩) []) s = .next (State.stoppedTaken g
      [.completion 0x08 tag .ok (BitVec.ofNat 32 s.localTime) (BitVec.ofNat 32 (s.localTime / 2 ^ 32)) 0]
      { s with intake := s.intake ++ [scheduleEvent f kind], tags := tagsAfterSchedule f.eventTag s.tags }) := by
  let u : State := { s with
    intake := s.intake ++ [scheduleEvent f kind], tags := tagsAfterSchedule f.eventTag s.tags }
  refine exec_stop_done r (c := .schedule f) u ?_
  have answer : offerAnswer (s.taken g []) = .accepted := (offerAnswer_accepted_iff _).2 ⟨hopen, room⟩
  have stops : enterStopping [] (u.taken g []) = u.stoppedTaken g [] := enterStopping_taken r.geom
  rw [← stops]
  simp only [executionOf, scheduleExecution, whole, inRange, offerEvent, answer]
  rfl

theorem schedule_stopped_full (n : Nat) (hopen : s.intakeOpen = true) (full : 64 ≤ s.intake.length) :
    exec (.stop (some ⟨tag, .schedule f, n + 1⟩) []) s
      = .next (s.stoppedTaken g [.completion 0x08 tag .intakeFull 0 0 0]) := by
  refine exec_stop_done r (c := .schedule f) s ?_
  have answer : offerAnswer (s.taken g []) = .full := (offerAnswer_full_iff _).2 ⟨hopen, full⟩
  simp only [executionOf, scheduleExecution, whole, inRange, answer, enterStopping_taken r.geom]

theorem schedule_stopped_closed (n : Nat) (hclosed : s.intakeOpen = false) :
    exec (.stop (some ⟨tag, .schedule f, n + 1⟩) []) s
      = .next (s.stoppedTaken g [.completion 0x08 tag .closed 0 0 0]) := by
  refine exec_stop_done r (c := .schedule f) s ?_
  have answer : offerAnswer (s.taken g []) = .closed := (offerAnswer_closed_iff _).2 hclosed
  simp only [executionOf, scheduleExecution, whole, inRange, answer, enterStopping_taken r.geom]

end

/-! #### Sets of offers -/

/-- R6: the offers accepted are among those made. -/
theorem acceptedLines_length_le (lines : List (Fin 16)) (s : State) : (s.acceptedLines lines).length ≤ lines.length := by
  unfold State.acceptedLines
  split
  · exact List.length_take_le' _ _
  · exact Nat.zero_le _

/-- R80: the set at its end, the STOP having met it after `n` offers made in `u`. -/
theorem abandon_afterOffers (tag : Word) (c : Command) (lines : List (Fin 16)) (n : Nat) (u : State) :
    let w := ((OfferSet.start tag c lines).afterOffers n u).abandon
    let made := u.acceptedLines (lines.take n)
    w.command = c ∧ w.made = made.length ∧ w.refused = lines.length - made.length
      ∧ (w.closed = true ↔ u.intakeOpen = false ∧ lines.take n ≠ [] ∨ lines.drop n ≠ []) := by
  have made := acceptedLines_length_le (lines.take n) u
  have parts : (lines.take n).length + (lines.drop n).length = lines.length := by
    rw [← List.length_append, List.take_append_drop]
  refine ⟨rfl, Nat.zero_add _, ?_, ?_⟩
  · simp only [OfferSet.abandon, OfferSet.afterOffers, OfferSet.start, Nat.zero_add]
    omega
  · simp only [OfferSet.abandon, OfferSet.afterOffers, OfferSet.start, Bool.or_eq_true, Bool.and_eq_true,
      Bool.not_eq_true', Bool.false_or, List.isEmpty_eq_false_iff]

/-- R80, R140: the offers made before the STOP. -/
theorem makeOffers_stopped {u : State} {g : Geometry} (hg : u.geom = some g) (tag : Word) (c : Command)
    (lines : List (Fin 16)) (n : Nat) :
    makeOffers (OfferSet.start tag c lines) (.stop n []) (u.taken g [])
      = ((u.stateEventsMade (u.acceptedLines (lines.take n))).stoppedTaken g [],
          ((OfferSet.start tag c lines).afterOffers n u).abandon.answer) := by
  have stops := enterStopping_taken (u := u.stateEventsMade (u.acceptedLines (lines.take n))) hg
  rw [← stops]
  simp only [makeOffers, advance_eq]
  rfl

theorem refresh_stopped {s : State} {g : Geometry} (r : Ready s g) (tag : Word) {set : Word}
    (hf : FieldsInRange s (.refresh set)) (n : Nat) :
    let lines := (List.finRange 16).filter fun n => set.getLsbD n.val = true ∧ s.inputs[n].config.mode ≠ .off
    let made := s.acceptedLines (lines.take n)
    exec (.stop (some ⟨tag, .refresh set, n⟩) []) s = .next ((s.stateEventsMade made).stoppedTaken g
      [.completion 0x0A tag (if s.intakeOpen = false ∧ lines.take n ≠ [] ∨ lines.drop n ≠ [] then .closed else .ok)
        (BitVec.ofNat 32 made.length) (BitVec.ofNat 32 (lines.length - made.length)) 0]) := by
  intro lines made
  refine exec_stop_done r (c := .refresh set) (s.stateEventsMade made) ?_
  have executed := makeOffers_stopped r.geom tag (.refresh set) lines n
  have ends := abandon_afterOffers tag (.refresh set) lines n s
  revert executed
  generalize ((OfferSet.start tag (.refresh set) lines).afterOffers n s).abandon = w at ends
  obtain ⟨command, hmade, refused, closed⟩ := ends
  intro executed
  rw [executionOf, refreshExecution, if_pos ((refreshInRange_iff s set).2 hf), refreshLines_taken]
  refine executed.trans ?_
  simp only [OfferSet.answer, command, hmade, refused, ← closed]
  rfl

theorem routeSet_stopped {s : State} {g : Geometry} (r : Ready s g) (tag : Word) {f : RouteSetFields}
    (hf : FieldsInRange s (.routeSet f)) (hr : f.refresh = 1) (n : Nat) :
    let lines := (List.finRange 16).filter fun n =>
      s.inputs[n].config.mode ≠ .off ∧ s.inputs[n].config.source = f.source.setWidth 8
    let made := s.acceptedLines (lines.take n)
    exec (.stop (some ⟨tag, .routeSet f, n⟩) []) s = .next ((replaceRoute f (s.stateEventsMade made)).stoppedTaken g
      [.completion 0x01 tag .ok (BitVec.ofNat 32 made.length) (BitVec.ofNat 32 (lines.length - made.length))
        (if s.intakeOpen = false ∧ lines.take n ≠ [] ∨ lines.drop n ≠ [] then 1 else 0)]) := by
  intro lines made
  refine exec_stop_done r (c := .routeSet f) (replaceRoute f (s.stateEventsMade made)) ?_
  have executed : makeOffers (OfferSet.start tag (.routeSet f) lines) (.stop n []) ((replaceRoute f s).taken g [])
      = ((replaceRoute f (s.stateEventsMade made)).stoppedTaken g [],
          ((OfferSet.start tag (.routeSet f) lines).afterOffers n s).abandon.answer) :=
    makeOffers_stopped (u := replaceRoute f s) r.geom tag (.routeSet f) lines n
  have ends := abandon_afterOffers tag (.routeSet f) lines n s
  revert executed
  generalize ((OfferSet.start tag (.routeSet f) lines).afterOffers n s).abandon = w at ends
  obtain ⟨command, hmade, refused, closed⟩ := ends
  intro executed
  rw [executionOf, routeSetExecution, if_pos (routeSetInRange_taken r hf), if_pos hr, linesOfSource_taken]
  refine executed.trans ?_
  simp only [OfferSet.answer, command, hmade, refused, ← closed]
  rfl

/-! #### OUTPUT_SET -/

/-- R95, R140: before its request the STOP has closed the outputs to the host. -/
theorem outputSet_stopped {s : State} {g : Geometry} (r : Ready s g) (tag : Word) {f : OutputSetFields}
    (hf : FieldsInRange s (.outputSet f)) : exec (.stop (some ⟨tag, .outputSet f, 0⟩) []) s
      = .next (s.stoppedTaken g [.completion 0x07 tag .wrongMode
          (BitVec.ofNat 32 s.outputs[lineOf f.line].mode.code) 1 0]) := by
  refine exec_stop_done r (c := .outputSet f) s ?_
  have mode : (s.stoppedTaken g []).outputs[lineOf f.line].mode = s.outputs[lineOf f.line].mode := by
    simp [State.stoppedTaken, State.taken, State.stopped]
  have stopping : (s.stoppedTaken g []).part = .stopping := rfl
  simp only [executionOf, outputSetExecution, whole, enterStopping_taken r.geom, (outputSetInRange_iff s f).2 hf, if_true,
    stopping, mode, reduceCtorEq, and_false, if_false]

/-! #### LINK_OPEN -/

theorem needsSettle_linkOpen {s : State} {tag : Word} (h : s.deferred = [⟨tag, .linkOpen⟩]) : needsSettle s = false := by
  simp [needsSettle, quiesceReady, fenceReady, findDeferred, h, Job.kind]

/-- R140, R171: a LINK_OPEN left in flight completes ABORTED, and its session closes with reason STOP. -/
theorem abortLeftovers_linkOpen {s : State} {g : Geometry} {tag : Word} (stopping : s.part = .stopping)
    (hg : s.geom = some g) (called : s.deferred = [⟨tag, .linkOpen⟩]) (calling : s.link.session ≠ .closed) :
    abortLeftovers s = { s with
      geom := some (g.complete [.completion 0x0D tag .aborted 9 (sessionPair s.link) 0])
      deferred := []
      link := s.link.ended .closed .stop true
      linkNotices := if g.notice ≠ none then
          s.linkNotices ++ [.link .closed .stop s.link.own s.link.recorded s.localTime]
        else s.linkNotices } := by
  have ring : (noticeRing s).isSome = true ↔ g.notice ≠ none := by
    unfold noticeRing
    rw [hg]
    exact Option.isSome_iff_ne_none
  have notices : (s.link.session ≠ .closed ∧ (noticeRing s).isSome = true) = (g.notice ≠ none) :=
    propext ⟨fun h => ring.1 h.2, fun h => ⟨calling, ring.2 h⟩⟩
  rw [abortLeftovers, if_pos stopping, abortDeferred_complete, closeAtStop_idle rfl, noticeRing_complete]
  dsimp only
  simp only [notices, if_neg calling, hg, called]
  rfl

/-- R105, R118: a session just called has recorded no peer. -/
theorem sessionPair_call (p : LinkParams) (l : Link) :
    sessionPair (Link.call p l) = (Link.call p l).own.setWidth 32 := by
  show BitVec.ofNat 32 (_ + 65536 * 0) = _
  simp [BitVec.setWidth, BitVec.setWidth']

section
variable {s : State} {g : Geometry} (r : Ready s g) (tag : Word) {f : LinkOpenFields}
  (hf : FieldsInRange s (.linkOpen f))
include r hf

/-- R140: a LINK_OPEN whose request the STOP finds made is aborted with the others. -/
theorem linkOpen_stopped_after (n : Nat) (free : s.link.session = .closed ∨ s.link.session = .failed) :
    exec (.stop (some ⟨tag, .linkOpen f, n + 1⟩) []) s = .next (State.stoppedTaken g []
      { s with link := Link.call (linkParamsOf f) s.link, deferred := s.deferred ++ [⟨tag, .linkOpen⟩] }) := by
  let u : State := { s with link := Link.call (linkParamsOf f) s.link, deferred := s.deferred ++ [⟨tag, .linkOpen⟩] }
  have executed : executionOf tag (.linkOpen f) (.stop (n + 1) []) (s.taken g []) = (u.stoppedTaken g [], .joined) := by
    have stops : enterStopping [] (u.taken g []) = u.stoppedTaken g [] := enterStopping_taken r.geom
    rw [← stops]
    rcases free with free | free <;>
    · have free' : (s.taken g []).link.session = _ := free
      simp only [executionOf, linkOpenExecution, whole, (linkOpenInRange_iff s f).2 hf, free', if_true]
      rfl
  rw [exec_stop_during r, executed]
  have idle : settle (u.stoppedTaken g []) = u.stoppedTaken g [] := settle_of_settled (needsSettle_idle rfl)
  rw [answerCommand, idle, stoppedTaken_ends]

/-- R140, R171: a LINK_OPEN before its request calls from the session the STOP closed, and is aborted when its execution
ends. -/
theorem linkOpen_stopped_before :
    let link := Link.call (linkParamsOf f) s.stopped.link
    exec (.stop (some ⟨tag, .linkOpen f, 0⟩) []) s = .next
      { s.stoppedTaken g [.completion 0x0D tag .aborted 9 (link.own.setWidth 32) 0] with
        link := link.ended .closed .stop true
        linkNotices := if g.notice ≠ none then s.stopped.linkNotices ++ [.link .closed .stop link.own 0 s.localTime]
          else s.stopped.linkNotices } := by
  intro link
  let v : State := { s.stoppedTaken g [] with link := link, deferred := [⟨tag, .linkOpen⟩] }
  have executed : executionOf tag (.linkOpen f) (.stop 0 []) (s.taken g []) = (v, .joined) := by
    have closed : (s.stoppedTaken g []).link.session = .closed := stopped_session s
    simp only [executionOf, linkOpenExecution, whole, enterStopping_taken r.geom, (linkOpenInRange_iff s f).2 hf, closed,
      if_true]
    rfl
  have calling : v.link.session ≠ .closed := show Session.calling ≠ .closed by decide
  have idle : settle v = v := settle_of_settled (needsSettle_linkOpen rfl)
  rw [exec_stop_during r, executed, answerCommand, idle, abortLeftovers_linkOpen rfl rfl rfl calling,
    commandFetch_stopping rfl, sessionPair_call]
  simp only [v, link, State.stoppedTaken, State.taken, ← Geometry.complete_append, List.append_nil]
  rfl

end

/-- Settles O17: command by command, what the execution leaves where the STOP falls. -/
theorem stopInsideExecution : Obligations.StopInsideExecution := by
  intro s g tag r finish
  refine ⟨fun f kind n inRange => ?_, fun f n hf hr => ?_, fun set n hf => ?_, fun f hf => ?_, fun f n hf => ?_⟩
  · exact ⟨schedule_stopped_before r tag inRange, schedule_stopped_accepted r tag inRange n,
      schedule_stopped_full r tag inRange n, schedule_stopped_closed r tag inRange n⟩
  · exact routeSet_stopped r tag hf hr n
  · exact refresh_stopped r tag hf n
  · intro n mode
    have code : BitVec.ofNat 32 mode.code = if mode = .disabled then 0 else if mode = .routed then 1 else 2 := by
      cases mode <;> rfl
    rw [← code]
    exact outputSet_stopped r tag hf
  · intro own called u
    have call : Link.call (linkParamsOf f) s.stopped.link = called s.stopped.link := by
      rw [Link.call, stopped_own]
      rfl
    have before := linkOpen_stopped_before r tag hf
    simp only [call] at before
    refine ⟨before, fun free => (linkOpen_stopped_after r tag hf n free).trans ?_⟩
    rw [State.stoppedTaken, List.append_nil]
    rfl

end Sys2Proof.Machine
end

section
/-! PROOFS. The entry to HALTED (O18): what it leaves, and what of the part it does not look at. -/

namespace Sys2Proof.Machine

/-! ### Steps that do not look at the bus

What the part has written into host memory, and the index writes it has made and not seen complete, are read by nothing
but the completion of a write. So an execution, an offer or the entry to HALTED goes the same way whatever they are. -/

/-- The state with other host memory and other index writes. -/
def State.withBus (m : List Host.Cell) (ws : List IndexWrite) (s : State) : State :=
  { s with hostMem := m, indexWrites := ws }

/-- The operation neither reads nor writes host memory and the index writes made. -/
def Blind (f : State → State) : Prop := ∀ m ws s, f (s.withBus m ws) = (f s).withBus m ws

section
variable {m : List Host.Cell} {ws : List IndexWrite}

theorem ite_withBus {c : Prop} [Decidable c] {t u t' u' : State} (ht : t' = t.withBus m ws) (hu : u' = u.withBus m ws) :
    (if c then t' else u') = (if c then t else u).withBus m ws := by
  split
  · exact ht
  · exact hu

end

theorem Blind.comp {f h : State → State} (hh : Blind h) (hf : Blind f) : Blind fun s => h (f s) := fun m ws s =>
  (congrArg h (hf m ws s)).trans (hh m ws (f s))

/-! #### The intake and the lines -/

theorem offerAnswer_withBus (m : List Host.Cell) (ws : List IndexWrite) (s : State) :
    offerAnswer (s.withBus m ws) = offerAnswer s := rfl

theorem offerEvent_blind (e : Event) : Blind (offerEvent e) := fun m ws s => by
  unfold offerEvent
  rw [offerAnswer_withBus]
  cases offerAnswer s <;> rfl

theorem offerEdge_blind (n : Fin 16) (l : InputLine) (e : Event) (level : Level) (window : Option Nat) :
    Blind (offerEdge n l e level window) := fun m ws s => by
  unfold offerEdge
  rw [offerAnswer_withBus, offerEvent_blind]
  cases offerAnswer s <;> rfl

theorem acceptChange_blind (n : Fin 16) (l : InputLine) (stamp : Nat) : Blind (acceptChange n l stamp) :=
  fun m ws s => ite_withBus (ite_withBus rfl (offerEdge_blind _ _ _ _ _ m ws s)) rfl

theorem rawChange_blind (n : Fin 16) (level : Level) : Blind (rawChange n level) := fun m ws s => by
  refine ite_withBus rfl (ite_withBus ?_ rfl)
  have line : (s.withBus m ws).inputs[n].candidate = s.inputs[n].candidate := rfl
  rw [line]
  cases s.inputs[n].candidate with
  | some start => rfl
  | none => exact ite_withBus (acceptChange_blind _ _ _ m ws s) rfl

theorem filterAccept_blind (n : Fin 16) : Blind (filterAccept n) := fun m ws s => by
  have line : (s.withBus m ws).inputs[n].candidate = s.inputs[n].candidate := rfl
  unfold filterAccept
  dsimp only
  rw [line]
  cases s.inputs[n].candidate with
  | none => rfl
  | some start => exact ite_withBus (acceptChange_blind _ _ _ m ws s) rfl

theorem spacingEnd_blind (n : Fin 16) : Blind (spacingEnd n) := fun m ws s => by
  have line : (s.withBus m ws).inputs[n] = s.inputs[n] := rfl
  unfold spacingEnd
  dsimp only
  rw [line]
  cases s.inputs[n].spacingEnd with
  | none => rfl
  | some finish =>
    refine ite_withBus ?_ rfl
    cases catchUpLevel s.inputs[n] with
    | none => rfl
    | some level => exact offerEdge_blind _ _ _ _ _ m ws s

theorem offerState_blind (n : Fin 16) : Blind (offerState n) := fun m ws s => by
  unfold offerState
  rw [offerAnswer_withBus, offerEvent_blind]
  cases offerAnswer s <;> rfl

theorem announceLine_blind (n : Fin 16) : Blind (announceLine n) := fun m ws s => by
  refine ite_withBus rfl ?_
  rw [offerAnswer_withBus, offerState_blind]
  cases offerAnswer s <;> rfl

theorem announceNext_one_blind : Blind (announceNext 1) := fun m ws s => by
  simp only [announceNext]
  have waiting : (s.withBus m ws).announcing = s.announcing := rfl
  rw [waiting]
  cases s.announcing with
  | nil => rfl
  | cons n rest => exact announceLine_blind n m ws { s with announcing := rest }

/-! #### The link and the deferred commands -/

theorem settle_blind : Blind settle := fun m ws s => by
  rw [settle_eq_settled, settle_eq_settled]
  exact ite_withBus rfl rfl

theorem receive_blind {f : State → State} (hf : Blind f) : Blind (receive f) := fun m ws s =>
  ite_withBus rfl ((congrArg settle (hf m ws (arrived s))).trans (settle_blind m ws _))

theorem takeExpected_blind (f : RxEventFields) (kind : EventKind) : Blind (takeExpected f kind) := fun m ws s => by
  unfold takeExpected
  rw [offerAnswer_withBus]
  cases offerAnswer s with
  | accepted =>
    exact offerEvent_blind _ m ws
      (countLink (fun c => { c with eventsReceived := bump c.eventsReceived }) (onLink Link.pass s))
  | full => rfl
  | closed => rfl

theorem takeEvent_blind (f : RxEventFields) : Blind (takeEvent f) := fun m ws s => by
  unfold takeEvent
  cases rxKind f with
  | none => exact ite_withBus rfl rfl
  | some kind =>
    exact ite_withBus (ite_withBus (takeExpected_blind f kind m ws s) (ite_withBus rfl rfl)) rfl

/-! #### The entry to HALTED -/

theorem offerLate_blind (x : LateOffer) : Blind (offerLate x) := by
  cases x with
  | edge n => exact filterAccept_blind n
  | unfiltered n level => exact rawChange_blind n level
  | catchUp n => exact spacingEnd_blind n
  | announce => exact announceNext_one_blind
  | frame f => exact receive_blind (takeEvent_blind f)

theorem offersLate_blind (late : List LateOffer) : Blind (offersLate late) := by
  have fold : Blind fun t => late.foldl (fun t x => offerLate x t) t := by
    induction late with
    | nil => exact fun _ _ _ => rfl
    | cons x late ih => exact ih.comp (offerLate_blind x)
  exact fold.comp fun _ _ _ => rfl

theorem closeAtHalt_blind : Blind closeAtHalt := fun _ _ _ => ite_withBus rfl rfl

theorem setCause_blind (c : Cause) : Blind (setCause c) := fun _ _ _ => rfl

theorem postFaultNotice_blind (r : HostRecord) : Blind (postFaultNotice r) := fun _ _ _ => ite_withBus rfl rfl

/-- R182: a raise is booked in its class. -/
def bookRaise (r : Raise) (s : State) : State :=
  { s with
    faults := s.faults.set r.cls.code ((faultOf s r.cls).raised r.context s.localTime (postsRecords s.part)) }

theorem takeRaise_blind (r : Raise) : Blind (takeRaise r) := fun m ws s => by
  have posted := ite_withBus (c := ((faultOf s r.cls).armed && (faultOf s r.cls).enabled && postsRecords s.part) = true)
    (postFaultNotice_blind (.fault r.cls r.context s.localTime) m ws (bookRaise r s))
    (show (bookRaise r s).withBus m ws = (bookRaise r s).withBus m ws from rfl)
  exact ite_withBus (congrArg (setCause .fault) posted) posted

/-- R141: the part at entry to HALTED, its session closed, but for the raise of HOST_BUS and the STATE cause. -/
def haltedFrom (u : State) : State :=
  endPulses (resetCapture { discardEvents u with
    part := .halted
    cmdRead := false
    geom := u.geom.map Geometry.drop
    indexWrites := []
    issued := u.issued ++ u.bufWrites
    bufWrites := []
    delivery := none
    faultNotices := []
    linkNotices := [] })

theorem enterHalted_haltedFrom (late : List LateOffer) (s : State) : enterHalted late s
    = setCause .state (takeRaise ⟨.hostBus, 0⟩ (haltedFrom (closeAtHalt (offersLate late s)))) := rfl

/-- R141: the entry to HALTED drops the index writes, and leaves host memory alone. -/
theorem enterHalted_withBus (late : List LateOffer) (m : List Host.Cell) (ws : List IndexWrite) (s : State) :
    enterHalted late (s.withBus m ws) = { enterHalted late s with hostMem := m } := by
  obtain ⟨-, -, dropped, -⟩ := enterHalted_keeps late s
  have halted : enterHalted late (s.withBus m ws) = (enterHalted late s).withBus m [] := by
    rw [enterHalted_haltedFrom, enterHalted_haltedFrom, offersLate_blind, closeAtHalt_blind]
    have drops (u : State) : haltedFrom (u.withBus m ws) = (haltedFrom u).withBus m [] := rfl
    rw [drops, takeRaise_blind, setCause_blind]
  rw [halted, State.withBus, ← dropped]

/-! #### The execution of a command -/

/-- What an execution ends with, on another bus. -/
def onBus (m : List Host.Cell) (ws : List IndexWrite) (r : State × Answer) : State × Answer := (r.1.withBus m ws, r.2)

/-- The request of a command neither reads nor writes host memory and the index writes made. -/
def BlindRequest (f : State → State × Answer) : Prop := ∀ m ws s, f (s.withBus m ws) = onBus m ws (f s)

theorem ite_onBus {m : List Host.Cell} {ws : List IndexWrite} {c : Prop} [Decidable c] {r q r' q' : State × Answer}
    (hr : r' = onBus m ws r) (hq : q' = onBus m ws q) : (if c then r' else q') = onBus m ws (if c then r else q) := by
  split
  · exact hr
  · exact hq

theorem rejected_blind (st : Status) : BlindRequest (rejected st) := fun _ _ _ => rfl

theorem whole_blind {f : State → State × Answer} (hf : BlindRequest f) (n : Nat) : BlindRequest (whole f (.others n)) :=
  fun m ws s => by
    cases n with
    | zero => exact Prod.ext (by rfl) (congrArg Prod.snd (hf m ws s) :)
    | succ n => exact hf m ws s

theorem makeOffers_blind (w : OfferSet) (n : Nat) : BlindRequest (makeOffers w (.others n)) := fun m ws s => by
  simp only [makeOffers, advance_eq]
  rfl

theorem routeSetExecution_blind (tag : Word) (f : RouteSetFields) (n : Nat) :
    BlindRequest (routeSetExecution tag f (.others n)) := fun m ws s => by
  refine ite_onBus (ite_onBus ?_ ?_) (whole_blind (rejected_blind _) n m ws s)
  · exact makeOffers_blind _ n m ws (replaceRoute f s)
  · exact whole_blind (f := fun s => (replaceRoute f s, .done .ok 0 0 0)) (fun _ _ _ => rfl) n m ws s

theorem refreshExecution_blind (tag set : Word) (n : Nat) : BlindRequest (refreshExecution tag set (.others n)) :=
  fun m ws s => ite_onBus (makeOffers_blind _ n m ws s) (whole_blind (rejected_blind _) n m ws s)

theorem routeClearExecution_blind (f : RouteClearFields) (n : Nat) : BlindRequest (routeClearExecution f (.others n)) :=
  whole_blind (fun _ _ _ => ite_onBus (ite_onBus (by rfl) (by rfl)) (by rfl)) n

theorem changeRouteState_blind (target : RouteState) (source : Half) : BlindRequest (changeRouteState target source) :=
  fun _ _ _ => ite_onBus (ite_onBus (by rfl) (by rfl)) (by rfl)

theorem lineInExecution_blind (f : LineInFields) (n : Nat) : BlindRequest (lineInExecution f (.others n)) :=
  whole_blind (fun _ _ _ => ite_onBus (by rfl) (by rfl)) n

theorem lineOutExecution_blind (f : LineOutFields) (n : Nat) : BlindRequest (lineOutExecution f (.others n)) :=
  whole_blind (fun _ _ _ => ite_onBus (by rfl) (by rfl)) n

theorem outputSetExecution_blind (f : OutputSetFields) (n : Nat) : BlindRequest (outputSetExecution f (.others n)) :=
  whole_blind (fun m ws s => by
    refine ite_onBus (ite_onBus ?_ rfl) rfl
    have line : (s.withBus m ws).outputs[lineOf f.line] = s.outputs[lineOf f.line] := rfl
    have now : (s.withBus m ws).localTime = s.localTime := rfl
    rw [line, now]
    cases s.outputs[lineOf f.line].act (outputSetKind f) (s.localTime : Int) s.localTime <;> rfl) n

theorem scheduleExecution_blind (f : ScheduleFields) (n : Nat) : BlindRequest (scheduleExecution f (.others n)) :=
  whole_blind (fun m ws s => by
    cases scheduleKind f with
    | none => rfl
    | some kind =>
      dsimp only
      rw [offerAnswer_withBus, offerEvent_blind]
      cases offerAnswer s <;> rfl) n

theorem cancelExecution_blind (eventTag : Word) (n : Nat) : BlindRequest (cancelExecution eventTag (.others n)) :=
  whole_blind (fun _ _ _ => rfl) n

theorem timeReadExecution_blind (n : Nat) : BlindRequest (timeReadExecution (.others n)) :=
  whole_blind (fun _ _ _ => rfl) n

theorem stepTime_blind (t : Nat) : Blind (stepTime t) := fun _ _ _ => ite_withBus rfl rfl

theorem timeSetExecution_blind (time : Quad) (n : Nat) : BlindRequest (timeSetExecution time (.others n)) :=
  whole_blind (fun m ws s =>
    ite_onBus (ite_onBus (Prod.ext (stepTime_blind time.toNat m ws s) (by rfl)) (by rfl)) (by rfl)) n

theorem linkOpenExecution_blind (tag : Word) (f : LinkOpenFields) (n : Nat) :
    BlindRequest (linkOpenExecution tag f (.others n)) :=
  whole_blind (fun m ws s => by
    refine ite_onBus ?_ rfl
    have session : (s.withBus m ws).link.session = s.link.session := rfl
    rw [session]
    cases s.link.session <;> rfl) n

theorem enterClosed_blind (r : Reason) (b : Bool) : Blind (enterClosed r b) := fun m ws s => by
  rw [enterClosed_transition, enterClosed_transition]
  rfl

theorem linkCloseExecution_blind (n : Nat) : BlindRequest (linkCloseExecution (.others n)) :=
  whole_blind (fun m ws s => Prod.ext (ite_withBus rfl (enterClosed_blind .hostClose true m ws s)) rfl) n

theorem quiesceExecution_blind (tag deadline : Word) (n : Nat) :
    BlindRequest (quiesceExecution tag deadline (.others n)) :=
  whole_blind (fun m ws s => ite_onBus (by rfl) (ite_onBus (by rfl) (Prod.ext (settle_blind m ws
    (joinDeferred tag (.quiesce deadline.toNat 0) { s with intakeOpen := false })) (by rfl)))) n

theorem finishDeferred_blind (k : DeferredKind) (st : Status) (w1 w2 w3 : Word) :
    Blind (finishDeferred k st w1 w2 w3) := fun m ws s => by
  have found : findDeferred k (s.withBus m ws) = findDeferred k s := rfl
  unfold finishDeferred
  rw [found]
  split
  · rfl
  · rw [handCompletion_complete, handCompletion_complete]
    rfl

theorem finishQuiesce_blind (st : Status) : Blind (finishQuiesce st) := fun m ws s => by
  have found : findDeferred .quiesce (s.withBus m ws) = findDeferred .quiesce s := rfl
  unfold finishQuiesce
  rw [found]
  split
  · exact finishDeferred_blind _ _ _ _ _ m ws s
  · rfl

theorem openExecution_blind (n : Nat) : BlindRequest (openExecution (.others n)) :=
  whole_blind (fun m ws s => Prod.ext
    (finishQuiesce_blind .aborted m ws { s with intakeOpen := s.part == .running }) rfl) n

theorem statsReadExecution_blind (tag : Word) (f : StatsReadFields) (n : Nat) :
    BlindRequest (statsReadExecution tag f (.others n)) :=
  whole_blind (fun _ _ _ => ite_onBus (ite_onBus (by rfl) (by rfl)) (by rfl)) n

theorem faultsExecution_blind (f : FaultsFields) (n : Nat) : BlindRequest (faultsExecution f (.others n)) :=
  whole_blind (fun _ _ _ => ite_onBus (by rfl) (by rfl)) n

theorem fenceExecution_blind (tag : Word) (n : Nat) : BlindRequest (fenceExecution tag (.others n)) :=
  whole_blind (fun m ws s => ite_onBus (by rfl) (Prod.ext (settle_blind m ws
    (joinDeferred tag (.fence s.deferred.length (s.deferred.map fun d => d.job.kind)) s)) (by rfl))) n

theorem executionOf_blind (tag : Word) (c : Command) (n : Nat) : BlindRequest (executionOf tag c (.others n)) := by
  cases c with
  | unknown kind => exact whole_blind (rejected_blind _) n
  | routeSet f => exact routeSetExecution_blind tag f n
  | routeClear f => exact routeClearExecution_blind f n
  | routeSuspend source => exact whole_blind (changeRouteState_blind .suspended source) n
  | routeResume source => exact whole_blind (changeRouteState_blind .active source) n
  | lineInConfig f => exact lineInExecution_blind f n
  | lineOutConfig f => exact lineOutExecution_blind f n
  | outputSet f => exact outputSetExecution_blind f n
  | schedule f => exact scheduleExecution_blind f n
  | cancel eventTag => exact cancelExecution_blind eventTag n
  | refresh set => exact refreshExecution_blind tag set n
  | timeRead => exact timeReadExecution_blind n
  | timeSet time => exact timeSetExecution_blind time n
  | linkOpen f => exact linkOpenExecution_blind tag f n
  | linkClose => exact linkCloseExecution_blind n
  | quiesce deadline => exact quiesceExecution_blind tag deadline n
  | openIntake => exact openExecution_blind n
  | statsRead f => exact statsReadExecution_blind tag f n
  | faults f => exact faultsExecution_blind f n
  | fence => exact fenceExecution_blind tag n

/-! ### A command whose execution is one request -/

theorem Answer.Ends.ite {c : Prop} [Decidable c] {r q : State × Answer} (hr : r.2.Ends) (hq : q.2.Ends) :
    (if c then r else q).2.Ends := by
  split
  · exact hr
  · exact hq

theorem Answer.Ends.done {st : Status} {w1 w2 w3 : Word} : (Answer.done st w1 w2 w3).Ends := nofun

theorem Answer.Ends.joined : Answer.joined.Ends := nofun

theorem whole_ends {f : State → State × Answer} {u : State} (h : (f u).2.Ends) : (whole f (.others 0) u).2.Ends := h

/-- R8: the execution of a command that makes no set of offers does not wait for other steps. -/
theorem executionOf_ends {c : Command} (noRefresh : ∀ set, c ≠ .refresh set)
    (once : ∀ f, c = .routeSet f → f.refresh ≠ 1) (tag : Word) (u : State) :
    (executionOf tag c (.others 0) u).1 = u ∧ (executionOf tag c (.others 0) u).2.Ends := by
  cases c with
  | unknown kind => exact ⟨rfl, Answer.Ends.done⟩
  | routeSet f =>
    simp only [executionOf, routeSetExecution, if_neg (once f rfl)]
    split
    · exact ⟨rfl, Answer.Ends.done⟩
    · exact ⟨rfl, Answer.Ends.done⟩
  | refresh set => exact absurd rfl (noRefresh set)
  | routeClear f => exact ⟨rfl, whole_ends (.ite (.ite .done .done) .done)⟩
  | routeSuspend source | routeResume source =>
    exact ⟨rfl, whole_ends (.ite (.ite .done .done) .done)⟩
  | lineInConfig f => exact ⟨rfl, whole_ends (.ite .done .done)⟩
  | lineOutConfig f => exact ⟨rfl, whole_ends (.ite .done .done)⟩
  | outputSet f =>
    refine ⟨rfl, whole_ends (.ite (.ite ?_ .done) .done)⟩
    split
    · exact Answer.Ends.done
    · exact Answer.Ends.done
  | schedule f =>
    refine ⟨rfl, whole_ends ?_⟩
    split
    · exact Answer.Ends.done
    · split <;> exact Answer.Ends.done
  | cancel eventTag => exact ⟨rfl, Answer.Ends.done⟩
  | timeRead => exact ⟨rfl, Answer.Ends.done⟩
  | timeSet time => exact ⟨rfl, whole_ends (.ite (.ite .done .done) .done)⟩
  | linkOpen f =>
    refine ⟨rfl, whole_ends (.ite ?_ .done)⟩
    cases u.link.session with
    | closed | failed => exact Answer.Ends.joined
    | calling | aligning | up => exact Answer.Ends.done
  | linkClose => exact ⟨rfl, Answer.Ends.done⟩
  | quiesce deadline => exact ⟨rfl, whole_ends (.ite .done (.ite .done .joined))⟩
  | openIntake => exact ⟨rfl, Answer.Ends.done⟩
  | statsRead f => exact ⟨rfl, whole_ends (.ite (.ite .done .joined) .done)⟩
  | faults f => exact ⟨rfl, whole_ends (.ite .done .done)⟩
  | fence => exact ⟨rfl, whole_ends (.ite .done .joined)⟩

/-! ### The execution as far as the entry to HALTED finds it (R160) -/

/-- R160: the state that an execution has left where other steps fall inside it. -/
def leftBy (r : State × Answer) : State :=
  match r.2 with
  | .underWay w => { r.1 with executing := some w }
  | .done _ _ _ _ => r.1
  | .joined => r.1

theorem executedSoFar_ready {s : State} {g : Geometry} (r : Ready s g) (tag : Word) (c : Command) (n : Nat) :
    executedSoFar ⟨tag, c, n⟩ s = leftBy (executionOf tag c (.others n) (s.taken g [])) := by
  unfold executedSoFar
  rw [takeCommand_ready r]
  rfl

theorem leftBy_ends {r : State × Answer} (h : r.2.Ends) : leftBy r = r.1 := by
  obtain ⟨u, a⟩ := r
  cases a with
  | done | joined => rfl
  | underWay w => exact absurd rfl (h w)

theorem leftBy_onBus (m : List Host.Cell) (ws : List IndexWrite) (r : State × Answer) :
    leftBy (onBus m ws r) = (leftBy r).withBus m ws := by
  obtain ⟨u, a⟩ := r
  cases a <;> rfl

theorem Ready.withBus {s : State} {g : Geometry} (r : Ready s g) (m : List Host.Cell) (ws : List IndexWrite) :
    Ready (s.withBus m ws) g := ⟨r.running, r.reading, r.geom, r.free⟩

/-- R147: the write of the command consumer index that taking a command from `g` makes. -/
def takenWrite (g : Geometry) : IndexWrite := ⟨.command, (g.cmd.consumer + 1) % g.cmd.size⟩

/-- R147, R160: the execution goes the same way on any bus, its index write behind those made before it. -/
theorem executedSoFar_withBus {s : State} {g : Geometry} (r : Ready s g) (o : Overtaken) (m : List Host.Cell)
    (ws : List IndexWrite) :
    executedSoFar o (s.withBus m ws) = (executedSoFar o s).withBus m (ws ++ [takenWrite g]) := by
  obtain ⟨tag, c, n⟩ := o
  have taken : (s.withBus m ws).taken g [] = (s.taken g []).withBus m (ws ++ [takenWrite g]) := rfl
  rw [executedSoFar_ready (r.withBus m ws), executedSoFar_ready r, taken, executionOf_blind, leftBy_onBus]

theorem executedSoFar_bus {s : State} {g : Geometry} (r : Ready s g) (o : Overtaken) :
    (executedSoFar o s).hostMem = s.hostMem ∧ (executedSoFar o s).indexWrites = s.indexWrites ++ [takenWrite g] := by
  have same : executedSoFar o s = (executedSoFar o s).withBus s.hostMem (s.indexWrites ++ [takenWrite g]) :=
    executedSoFar_withBus r o s.hostMem s.indexWrites
  exact ⟨(congrArg State.hostMem same :), (congrArg State.indexWrites same :)⟩

theorem executedSoFar_geom {s : State} {g : Geometry} (r : Ready s g) (o : Overtaken) :
    ∃ g', (executedSoFar o s).geom = some g' ∧ g'.status = g.status := by
  have status := (executedSoFar_keeps o (s := s)).2.1
  rw [r.geom] at status
  exact Option.map_eq_some_iff.1 status

/-! ### The index write of a command inside whose execution the part enters HALTED (R141, R147) -/

/-- R146: the write of the command consumer index that completes writes its field of the status block. -/
theorem commandWritten_withBus {s : State} {g : Geometry} (hg : s.geom = some g) {before after : List IndexWrite}
    {value : Nat} (hw : s.indexWrites = before ++ ⟨.command, value⟩ :: after)
    (oldest : ∀ w ∈ before, w.field ≠ .command) :
    indexWritten .command s
      = s.withBus (Memory.writeBytes s.hostMem g.status.toNat (le 4 value)) (before ++ after) :=
  indexWritten_some hg hw oldest

/-- R141, R147: an earlier write of the command consumer index completes before that of the command. -/
theorem executed_oldest {s : State} {g : Geometry} (r : Ready s g) (o : Overtaken)
    (made : ∃ w ∈ s.indexWrites, w.field = .command) :
    commandIndexWritten (executedSoFar o s) = commandIndexWritten (executedSoFar o (indexWritten .command s)) := by
  obtain ⟨before, value, after, hw, oldest⟩ := oldest_write made
  obtain ⟨mem, writes⟩ := executedSoFar_bus r o
  obtain ⟨g', hg', status⟩ := executedSoFar_geom r o
  have queued : (executedSoFar o s).indexWrites = before ++ ⟨.command, value⟩ :: (after ++ [takenWrite g]) := by
    rw [writes, hw, List.append_assoc, List.cons_append]
  rw [commandIndexWritten_oldest hg' queued oldest, commandWritten_withBus hg' queued oldest,
    commandWritten_withBus r.geom hw oldest, executedSoFar_withBus r, mem, status, List.append_assoc]

/-- R141, R147: with no earlier write of the command consumer index, that of the command is the one that completes. -/
theorem executed_alone {s : State} {g : Geometry} (r : Ready s g) (o : Overtaken)
    (none : ∀ w ∈ s.indexWrites, w.field ≠ .command) :
    commandIndexWritten (executedSoFar o s) = (executedSoFar o s).withBus
      (Memory.writeBytes s.hostMem g.status.toNat (le 4 (takenWrite g).value)) s.indexWrites := by
  obtain ⟨mem, writes⟩ := executedSoFar_bus r o
  obtain ⟨g', hg', status⟩ := executedSoFar_geom r o
  rw [commandIndexWritten_oldest hg' writes none, commandWritten_withBus hg' writes none, mem, status, List.append_nil]
  exact commandIndexWritten_none none

/-! ### The entry to HALTED (R54, R83, R97, R116, R141, R182) -/

theorem Link.halt_ended (l : Link) :
    ({ l.leave with session := .closed, closeWait := some l.own } : Link) = l.ended .closed l.reason true := by
  have own : l.leave.own = l.own := by unfold Link.leave; split <;> rfl
  have reason : l.leave.reason = l.reason := by unfold Link.leave; split <;> rfl
  have closes := l.close_ended .closed l.reason true
  rw [← closes, ← own, ← reason]
  rfl

/-- R116: at the entry to HALTED the session closes with a CLOSE, and keeps its last reason. -/
theorem closeAtHalt_ended (s : State) : closeAtHalt s = { s with
    link := if s.link.session = .closed then s.link else s.link.ended .closed s.link.reason true } := by
  unfold closeAtHalt
  rw [← Link.halt_ended]
  split <;> rfl

/-- R141: with no offer that comes late, the part at entry to HALTED. -/
theorem haltedFrom_alone (s : State) : haltedFrom (closeAtHalt (offersLate [] s)) = { s with
    part := .halted, cmdRead := false, indexWrites := [], bufWrites := [], issued := s.issued ++ s.bufWrites
    delivery := none, faultNotices := [], linkNotices := []
    intake := [], intakeOpen := false, announcing := [], deciding := none, handover := none, hold := []
    discardedAtStop := bumpBy s.hold.length (bumpBy (s.intake.length + s.decisions) s.discardedAtStop)
    link := if s.link.session = .closed then s.link else s.link.ended .closed s.link.reason true
    geom := s.geom.map fun g => { g with
      compl := { g.compl with writes := [] }
      event := Vector.ofFn fun ring => { g.event[ring] with writes := [] } }
    inputs := Vector.ofFn fun n => s.inputs[n].stable
    outputs := Vector.ofFn fun n => { s.outputs[n] with pulse := none } } := by
  rw [closeAtHalt_ended]
  simp only [haltedFrom, offersLate, List.foldl_nil, endPulses, resetCapture_stable, discardEvents, intakeLoad_eq]
  rfl

theorem busMasterError_running {s : State} (posts : s.part = .running ∨ s.part = .stopping) (during : Option Overtaken)
    (late : List LateOffer) (indexed : Bool) :
    busMasterError during late indexed s = haltPart during late indexed s := by
  unfold busMasterError
  rcases posts with h | h <;> rw [h]

theorem busMasterError_starting {s : State} (starting : s.part = .starting) (during : Option Overtaken)
    (late : List LateOffer) (indexed : Bool) : busMasterError during late indexed s = failStart .busError s := by
  unfold busMasterError
  rw [starting]

/-- Log entry 24: in IDLE and HALTED the part makes no access. -/
theorem busMasterError_off {s : State} (off : s.part = .idle ∨ s.part = .halted) (during : Option Overtaken)
    (late : List LateOffer) (indexed : Bool) : busMasterError during late indexed s = s := by
  unfold busMasterError
  rcases off with h | h <;> rw [h]

theorem exec_busMasterError {s : State} (posts : s.part = .running ∨ s.part = .stopping) (late : List LateOffer) :
    exec (.busMasterError none late) s = .next (enterHalted late s) :=
  congrArg Host.Outcome.next (busMasterError_running posts none late false)

theorem busMasterError_none (late : List LateOffer) (indexed : Bool) (s : State) :
    busMasterError none late indexed s = busMasterError none late false s := by
  unfold busMasterError
  cases s.part <;> rfl

/-- R147: outside RUNNING, or with no read outstanding, no command is under execution that the entry could meet. -/
theorem busMasterError_not_taken {s : State} (h : s.part ≠ .running ∨ s.cmdRead = false) (o : Overtaken)
    (late : List LateOffer) (indexed : Bool) :
    busMasterError (some o) late indexed s = busMasterError none late false s := by
  have alone : haltPart (some o) late indexed s = enterHalted late s :=
    if_neg fun taken => h.elim (· taken.1) (by simp [taken.2])
  unfold busMasterError
  cases s.part with
  | running | stopping => exact alone
  | idle | starting | halted => rfl

theorem exec_busMasterError_cons {s u : State} {x : LateOffer} (running : s.part = .running)
    (step : exec (producerOf x) { s with intakeOpen := false } = .next u) (late : List LateOffer) :
    exec (.busMasterError none (x :: late)) s = exec (.busMasterError none late) u := by
  obtain ⟨part, same⟩ := enterHalted_cons running step late
  rw [exec_busMasterError (.inl running), exec_busMasterError (.inl part), same]

/-! ### The entry to HALTED inside the execution of a command (R160) -/

theorem exec_busMasterError_during {s : State} {g : Geometry} (r : Ready s g) (o : Overtaken) (late : List LateOffer)
    (indexed : Bool) : exec (.busMasterError (some o) late indexed) s = .next (enterHalted late
      (if indexed then commandIndexWritten (executedSoFar o s) else executedSoFar o s)) :=
  congrArg Host.Outcome.next
    ((busMasterError_running (.inl r.running) (some o) late indexed).trans (if_pos ⟨r.running, r.reading⟩))

/-- R160: the command gets no completion, and what its execution has left is halted. -/
theorem exec_busMasterError_left {s t : State} {g : Geometry} (r : Ready s g) {o : Overtaken}
    (left : executedSoFar o s = t) (running : t.part = .running) (late : List LateOffer) :
    exec (.busMasterError (some o) late) s = exec (.busMasterError none late) t := by
  rw [exec_busMasterError_during r, exec_busMasterError (.inl running), ← left]
  rfl

section
variable {s : State} {g : Geometry} (r : Ready s g) (tag : Word)
include r

theorem executedSoFar_before {c : Command} (noRefresh : ∀ set, c ≠ .refresh set)
    (once : ∀ f, c = .routeSet f → f.refresh ≠ 1) : executedSoFar ⟨tag, c, 0⟩ s = s.taken g [] := by
  obtain ⟨stays, ends⟩ := executionOf_ends noRefresh once tag (s.taken g [])
  rw [executedSoFar_ready r, leftBy_ends ends, stays]

theorem executedSoFar_schedule {f : ScheduleFields} {kind : EventKind} (inRange : scheduleKind f = some kind)
    (hopen : s.intakeOpen = true) (room : s.intake.length < 64) (n : Nat) :
    executedSoFar ⟨tag, .schedule f, n + 1⟩ s = { s.taken g [] with
      intake := s.intake ++ [scheduleEvent f kind], tags := tagsAfterSchedule f.eventTag s.tags } := by
  have answer : offerAnswer (s.taken g []) = .accepted := (offerAnswer_accepted_iff _).2 ⟨hopen, room⟩
  rw [executedSoFar_ready r]
  simp only [executionOf, scheduleExecution, whole, inRange, offerEvent, answer]
  rfl

/-- R8, R160: a set of offers is left as its own row leaves it after as many offers. -/
theorem runOffering_left {u : State} (running : u.part = .running) {c : Command} {x : Execution} {n : Nat}
    {lines : List (Fin 16)}
    (begins : x (.others n) (s.taken g []) = makeOffers (OfferSet.start tag c lines) (.others n) (u.taken g [])) :
    runOffering (some n) tag c x s = leftBy (x (.others n) (s.taken g []))
      ∧ (leftBy (x (.others n) (s.taken g []))).part = .running := by
  have made := begins.trans (makeOffers_taken g tag c lines n u)
  have begun := runOffering_begun r (tag := tag) (c := c)
    (u := u.stateEventsMade (u.acceptedLines (lines.take n))) running made
  rw [made]
  exact ⟨begun, running⟩

theorem executedSoFar_offers {c : Command} (offers : (∃ set, c = .refresh set) ∨ ∃ f, c = .routeSet f ∧ f.refresh = 1)
    (hf : FieldsInRange s c) (n : Nat) :
    exec (takeUpTo (some n) tag c) s = .next (executedSoFar ⟨tag, c, n⟩ s)
      ∧ (executedSoFar ⟨tag, c, n⟩ s).part = .running := by
  rw [executedSoFar_ready r]
  rcases offers with ⟨set, rfl⟩ | ⟨f, rfl, once⟩
  · have begins : refreshExecution tag set (.others n) (s.taken g []) = makeOffers
        (OfferSet.start tag (.refresh set) (refreshLines set (s.taken g []))) (.others n) (s.taken g []) :=
      if_pos ((refreshInRange_iff s set).2 hf)
    obtain ⟨row, part⟩ := runOffering_left r tag r.running begins
    exact ⟨congrArg Host.Outcome.next row, part⟩
  · have begins : routeSetExecution tag f (.others n) (s.taken g []) = makeOffers
        (OfferSet.start tag (.routeSet f) (linesOfSource (sourceOf f.source) (s.taken g []))) (.others n)
        ((replaceRoute f s).taken g []) :=
      (if_pos (routeSetInRange_taken r hf)).trans (if_pos once)
    obtain ⟨row, part⟩ := runOffering_left r tag (u := replaceRoute f s) r.running begins
    refine ⟨congrArg Host.Outcome.next (Eq.trans ?_ row), part⟩
    rw [if_pos once]

end

/-- Settles O18: the entry to HALTED in every part state, behind offers that come late, inside the execution of a command,
and with that command's index write completed. -/
theorem busErrorHaltsThePart : Obligations.BusErrorHaltsThePart := by
  refine ⟨fun s => ⟨fun during late indexed starting => ?_, fun posts => ?_, fun during late indexed off => ?_,
      fun o late indexed idle => ?_, fun late indexed => ?_⟩, fun s u n level f late running => ?_,
    fun s g tag c late r => ⟨fun noRefresh once => ?_, fun f kind n hc inRange hopen room => ?_,
      fun n t offers hf row => ?_⟩, fun s u t g o late r => ⟨fun made step => ?_, fun none halts => ?_⟩⟩
  · exact congrArg Host.Outcome.next (busMasterError_starting starting during late indexed)
  · rw [exec_busMasterError posts, enterHalted_haltedFrom, haltedFrom_alone]
  · exact congrArg Host.Outcome.next (busMasterError_off off during late indexed)
  · exact congrArg Host.Outcome.next (busMasterError_not_taken idle o late indexed)
  · exact congrArg Host.Outcome.next (busMasterError_none late indexed s)
  · exact ⟨fun step => exec_busMasterError_cons (x := .edge n) running step late,
      fun step => exec_busMasterError_cons (x := .unfiltered n level) running step late,
      fun step => exec_busMasterError_cons (x := .catchUp n) running step late,
      fun step => exec_busMasterError_cons (x := .announce) running step late,
      fun step => exec_busMasterError_cons (x := .frame f) running step late⟩
  · exact exec_busMasterError_left r (executedSoFar_before r tag noRefresh once) r.running late
  · subst hc
    exact exec_busMasterError_left r (executedSoFar_schedule r tag inRange hopen room n) r.running late
  · obtain ⟨left, part⟩ := executedSoFar_offers r tag offers hf n
    obtain rfl := Host.Outcome.next.inj (left.symm.trans row)
    exact exec_busMasterError_left r rfl part late
  · obtain rfl : indexWritten .command s = u :=
      (recordWriteDone_index (.inl r.running) .command).symm.trans (Host.Outcome.next.inj step)
    obtain ⟨before, value, after, hw, oldest⟩ := oldest_write made
    have r' : Ready (indexWritten .command s) g := by
      rw [commandWritten_withBus r.geom hw oldest]
      exact r.withBus _ _
    rw [exec_busMasterError_during r, exec_busMasterError_during r', if_pos rfl, if_pos rfl, executed_oldest r o made]
  · obtain rfl : enterHalted late (executedSoFar o s) = t :=
      Host.Outcome.next.inj ((exec_busMasterError_during r o late false).symm.trans halts)
    rw [exec_busMasterError_during r, if_pos rfl, executed_alone r o none, enterHalted_withBus]
    rfl

end Sys2Proof.Machine
end

section
/-! PROOFS. Faults and counters: the Fault Unit's take of a raise and FAULTS (O50), and the bytes a STATS_READ
shows of the state (O36). -/

namespace Sys2Proof.Machine

/-! ### The Fault Unit takes a raise (R182 to R184) -/

/-- R182: the count of a class stays at 65,535, in the words of O50. -/
theorem bump16_eq (c : BitVec 16) : bump16 c = if c.toNat = 65535 then c else c + 1 := by
  have top : c = BitVec.allOnes 16 ↔ c.toNat = 65535 := BitVec.toNat_inj.symm
  simp only [bump16, top]

/-- R183: the notice of an episode is posted, in the words of O50. -/
theorem noticePosts_iff (x : FaultState) (p : PartState) : (x.armed && x.enabled && postsRecords p) = true
    ↔ x.armed = true ∧ x.enabled = true ∧ (p = .running ∨ p = .stopping) := by
  rw [Bool.and_eq_true, Bool.and_eq_true, postsRecords_iff, and_assoc]

/-- R183: the episode's notice disarms its class, in the words of O50. -/
theorem FaultState.raised_armed (x : FaultState) (p : PartState) (context : Word) (now : Nat) :
    (x.raised context now (postsRecords p)).armed
      = if x.armed = true ∧ x.enabled = true ∧ (p = .running ∨ p = .stopping) then false else x.armed := by
  have disarms : ∀ armed enabled posts : Bool, (armed && !(enabled && posts))
      = if (armed && enabled && posts) = true then false else armed := by decide
  simp only [← noticePosts_iff]
  exact disarms _ _ _

/-- R182, R183: a class after a raise, in the words of O50. -/
theorem FaultState.raised_eq (x : FaultState) (p : PartState) (context : Word) (now : Nat) :
    x.raised context now (postsRecords p) = {
      sticky := true
      count := if x.count.toNat = 65535 then x.count else x.count + 1
      enabled := x.enabled
      armed := if x.armed = true ∧ x.enabled = true ∧ (p = .running ∨ p = .stopping) then false else x.armed
      firstContext := if x.sticky then x.firstContext else some context
      firstTime := if x.sticky then x.firstTime else some now } := by
  rw [← FaultState.raised_armed x p context now, ← bump16_eq]
  rfl

/-- R152, R183: a notice is handed over with a notice ring alone. -/
theorem postFaultNotice_eq (rec : HostRecord) (s : State) : postFaultNotice rec s = { s with
    faultNotices := if noticeRing s ≠ none then s.faultNotices ++ [rec] else s.faultNotices } := by
  unfold postFaultNotice
  cases noticeRing s <;> rfl

/-- R182 to R184: a raise is booked in its class, its notice posted and the cause set. -/
theorem takeRaise_booked (r : Raise) (s : State) :
    let x := faultOf s r.cls
    let u : State := { bookRaise r s with
      faultNotices :=
        if (x.armed = true ∧ x.enabled = true ∧ (s.part = .running ∨ s.part = .stopping)) ∧ noticeRing s ≠ none then
          s.faultNotices ++ [.fault r.cls r.context s.localTime]
        else s.faultNotices }
    takeRaise r s = if x.sticky = false ∧ x.enabled = true then setCause .fault u else u := by
  intro x u
  have posted : (if x.armed && x.enabled && postsRecords s.part
      then postFaultNotice (.fault r.cls r.context s.localTime) (bookRaise r s) else bookRaise r s) = u := by
    simp only [u, ← noticePosts_iff]
    by_cases posts : (x.armed && x.enabled && postsRecords s.part) = true
    · rw [if_pos posts, postFaultNotice_eq]
      simp only [posts, true_and]
      rfl
    · rw [if_neg posts, if_neg fun h => posts h.1]
      rfl
  have becomes : (!x.sticky && x.enabled) = true ↔ x.sticky = false ∧ x.enabled = true := by simp
  rw [← posted]
  simp only [← becomes]
  rfl

/-- R182, R185: the raise taken leaves those that wait. -/
theorem faultRaise_taken {s : State} {index : Nat} {r : Raise} (h : s.raises[index]? = some r) :
    faultRaise index s = takeRaise r { s with raises := s.raises.take index ++ s.raises.drop (index + 1) } := by
  rw [faultRaise, h, List.eraseIdx_eq_take_drop_succ]

/-! ### FAULTS (R178, R186, R187) -/

/-- 13.1: the classes in class order have the codes 0 to 8. -/
theorem allFaultClasses_map_code {α : Type} (member : Fin 9 → α) :
    (allFaultClasses.map fun c => member c.code) = (List.finRange 9).map member := by
  have codes : allFaultClasses.map FaultClass.code = List.finRange 9 := by decide
  rw [← codes, List.map_map]
  rfl

/-- 13.1: a class set has the bit of each class that is a member. -/
theorem classSet_eq (member : FaultState → Bool) (s : State) :
    BitVec.ofNat 32 ((allFaultClasses.map fun c => if member (faultOf s c) then 2 ^ c.code.val else 0).sum)
      = BitVec.ofNat 32 (((List.finRange 9).map fun k => if member s.faults[k] then 2 ^ k.val else 0).sum) :=
  congrArg (fun bits : List Nat => BitVec.ofNat 32 bits.sum)
    (allFaultClasses_map_code fun k => if member s.faults[k] then 2 ^ k.val else 0)

theorem stickySet_eq (s : State) : stickySet s = BitVec.ofNat 32
    (((List.finRange 9).map fun k => if s.faults[k].sticky then 2 ^ k.val else 0).sum) := classSet_eq (·.sticky) s

theorem reportMask_eq (s : State) : reportMask s = BitVec.ofNat 32
    (((List.finRange 9).map fun k => if s.faults[k].enabled then 2 ^ k.val else 0).sum) := classSet_eq (·.enabled) s

/-- R178, R186, R187: a class after a FAULTS, in the words of O50. -/
theorem FaultState.afterFaults_eq (f : FaultsFields) (k : Fin 9) (x : FaultState) : x.afterFaults f k =
    let x1 := if f.clear.getLsbD k.val = true ∧ k ≠ 0 then
      { x with sticky := false, count := 0, armed := true, firstContext := none, firstTime := none } else x
    if f.maskWrite = 1 then { x1 with enabled := f.mask.getLsbD k.val } else x1 := by
  have clears : (f.clear.getLsbD k.val && k != 0) = true ↔ f.clear.getLsbD k.val = true ∧ k ≠ 0 := by simp
  simp only [FaultState.afterFaults, clears, FaultState.cleared]

theorem queryIndex_eq {b : Byte} {query : Fin 9} (h : b.toNat = query.val) : queryIndex b = query :=
  Fin.ext ((congrArg (· % 9) h).trans (Nat.mod_eq_of_lt query.isLt))

/-- R178: FAULTS, its fields in range, completes OK. -/
theorem faults_done {s : State} {g : Geometry} (ready : Ready s g) {f : FaultsFields}
    (hf : FieldsInRange s (.faults f)) {query : Fin 9} (hq : f.query.toNat = query.val) (tag : Word) :
    let t : State := { s with faults := Vector.ofFn fun k => s.faults[k].afterFaults f k }
    exec (.faults tag f) s = .next (State.commandDone g []
      (.completion 0x12 tag .ok (stickySet s) (reportMask t) (s.faults[query].count.setWidth 32)) t) := by
  intro t
  obtain rfl := queryIndex_eq hq
  have executed : faultsExecution f .nothing (s.taken g []) = (t.taken g [],
      .done .ok (stickySet s) (reportMask t) (s.faults[queryIndex f.query].count.setWidth 32)) :=
    if_pos ((faultsInRange_iff s f).2 hf)
  exact congrArg Host.Outcome.next (runCommand_commandDone ready ready.running ready.free executed)

/-- Settles O50: a raise is taken as `takeRaise_booked` says, and FAULTS completes as `faults_done` says. -/
theorem faultRaiseAndFaultsCommand : Obligations.FaultRaiseAndFaultsCommand := by
  refine ⟨fun s index r h => ?raised, fun s g tag f query ready hf hq => ?faults⟩
  case raised =>
    refine congrArg Host.Outcome.next ((faultRaise_taken h).trans ((takeRaise_booked r _).trans ?_))
    simp only [bookRaise, FaultState.raised_eq]
    rfl
  case faults =>
    refine (faults_done ready hf hq tag).trans ?_
    rw [stickySet_eq, reportMask_eq]
    simp only [FaultState.afterFaults_eq]

/-! ### Bytes laid over a record (R190) -/

@[simp] theorem bytesAt_length (r : List Byte) (a n : Nat) : (bytesAt r a n).length = n := by simp [bytesAt]

/-- Two runs of bytes that agree byte by byte. -/
theorem bytesAt_congr {r t : List Byte} {a b n : Nat} (h : ∀ i < n, t.getD (b + i) 0 = r.getD (a + i) 0) :
    bytesAt t b n = bytesAt r a n :=
  List.map_congr_left fun i hi => h i (List.mem_range.1 hi)

theorem bytesAt_add (r : List Byte) (a n m : Nat) : bytesAt r a (n + m) = bytesAt r a n ++ bytesAt r (a + n) m := by
  simp [bytesAt, List.range_add, Nat.add_assoc, Function.comp_def]

theorem bytesAt_self (r : List Byte) : bytesAt r 0 r.length = r :=
  List.ext_getElem (bytesAt_length r 0 r.length) fun i _ hi => by simp [bytesAt, hi]

/-- R190: nothing of a record in assembly changes but at the spans, given as offsets and lengths. -/
def KeepsOutside (r t : List Byte) (spans : List (Nat × Nat)) : Prop :=
  t.length = r.length ∧ ∀ i, (∀ p ∈ spans, ¬ (p.1 ≤ i ∧ i < p.1 + p.2)) → t.getD i 0 = r.getD i 0

section
variable {r : List Byte} {a : Nat} {bytes : List Byte}

theorem poke_length (h : a + bytes.length ≤ r.length) : (poke r a bytes).length = r.length := by
  simp only [poke, List.length_append, List.length_take, List.length_drop]
  omega

theorem poke_getD_inside (h : a + bytes.length ≤ r.length) {i : Nat} (hi : i < bytes.length) :
    (poke r a bytes).getD (a + i) 0 = bytes.getD i 0 := by
  have before : (r.take a).length = a := List.length_take_of_le (by omega)
  rw [poke, List.append_assoc, List.getD_append_right _ _ _ _ (by omega), before, Nat.add_sub_cancel_left,
    List.getD_append _ _ _ _ hi]

theorem poke_getD_outside (h : a + bytes.length ≤ r.length) {i : Nat} (hi : ¬ (a ≤ i ∧ i < a + bytes.length)) :
    (poke r a bytes).getD i 0 = r.getD i 0 := by
  have before : (r.take a).length = a := List.length_take_of_le (by omega)
  rw [poke, List.append_assoc]
  by_cases low : i < a
  · rw [List.getD_append _ _ _ _ (by omega)]
    simp [List.getD_eq_getElem?_getD, low]
  · rw [List.getD_append_right _ _ _ _ (by omega), before, List.getD_append_right _ _ _ _ (by omega)]
    simp only [List.getD_eq_getElem?_getD, List.getElem?_drop]
    rw [show a + bytes.length + (i - a - bytes.length) = i by omega]

end

/-- The bytes laid at these offsets stand within a record of this length. -/
def FitWithin (patches : List (Nat × List Byte)) (length : Nat) : Prop := ∀ p ∈ patches, p.1 + p.2.length ≤ length

/-- R190: laying bytes over a record changes no other byte. -/
theorem pokeAll_keeps {patches : List (Nat × List Byte)} {r : List Byte} (inside : FitWithin patches r.length) :
    KeepsOutside r (pokeAll r patches) (patches.map fun p => (p.1, p.2.length)) := by
  induction patches generalizing r with
  | nil => exact ⟨rfl, fun _ _ => rfl⟩
  | cons p patches ih =>
    obtain ⟨hp, rest⟩ := List.forall_mem_cons.1 inside
    obtain ⟨length, outside⟩ := ih (r := poke r p.1 p.2) (by rw [poke_length hp]; exact rest)
    refine ⟨length.trans (poke_length hp), fun i hi => ?_⟩
    obtain ⟨here, later⟩ := List.forall_mem_cons.1 hi
    exact (outside i later).trans (poke_getD_outside hp here)

/-- R190: bytes laid in the order of their offsets, apart from each other, all stand in the record. -/
theorem pokeAll_bytesAt {patches : List (Nat × List Byte)} {r : List Byte} (inside : FitWithin patches r.length)
    (apart : patches.Pairwise fun p q => p.1 + p.2.length ≤ q.1) :
    ∀ p ∈ patches, bytesAt (pokeAll r patches) p.1 p.2.length = p.2 := by
  induction patches generalizing r with
  | nil => simp
  | cons p patches ih =>
    obtain ⟨hp, rest⟩ := List.forall_mem_cons.1 inside
    obtain ⟨behind, apart⟩ := List.pairwise_cons.1 apart
    have rest' : FitWithin patches (poke r p.1 p.2).length := by rw [poke_length hp]; exact rest
    refine List.forall_mem_cons.2 ⟨?_, ih rest' apart⟩
    refine (bytesAt_congr (r := p.2) (a := 0) fun i hi => ?_).trans (bytesAt_self p.2)
    refine ((pokeAll_keeps rest').2 (p.1 + i) fun q hq => ?_).trans ?_
    · obtain ⟨q, mem, rfl⟩ := List.mem_map.1 hq
      have := behind q mem
      dsimp only
      omega
    · rw [Nat.zero_add]
      exact poke_getD_inside hp hi

/-! ### Records as fields (13.3) -/

/-- A field of a record: the bytes it takes, and the number that stands in them. -/
structure RecordField where
  width : Nat
  value : Nat
  fits : value < 256 ^ width

/-- A field that shows a machine word, or a shorter number of bits above which 0 stands. -/
def RecordField.bits (n : Nat) {w : Nat} (x : BitVec w) (h : w ≤ 8 * n := by decide) : RecordField :=
  ⟨n, x.toNat, x.isLt.trans_le ((Nat.pow_le_pow_right (by decide) h).trans_eq (Nat.pow_mul 2 8 n))⟩

/-- A field that shows the low bytes of a number. -/
def RecordField.low (n x : Nat) : RecordField :=
  ⟨n, x % 2 ^ (8 * n), (Nat.mod_lt _ (Nat.two_pow_pos _)).trans_eq (Nat.pow_mul 2 8 n)⟩

/-- A signed field of eight bytes (13.3). -/
def RecordField.signed (i : Int) : RecordField :=
  ⟨8, (i % 2 ^ 64).toNat, (Int.toNat_lt (Int.emod_nonneg _ (by decide))).2 (Int.emod_lt_of_pos _ (by decide))⟩

/-- A byte of the state. -/
def RecordField.byte (x : Byte) : RecordField := ⟨1, x.toNat, x.isLt⟩

/-- A byte that shows a code. -/
def RecordField.code (x : Nat) (h : x < 256) : RecordField := ⟨1, x, h⟩

/-- A flag byte. -/
def RecordField.flag (b : Bool) : RecordField := ⟨1, b.toNat, by cases b <;> decide⟩

/-- Bytes written 0. -/
def RecordField.zero (n : Nat) : RecordField := ⟨n, 0, Nat.pow_pos (by decide)⟩

/-- The bytes of fields that stand one after another. -/
def layout : List RecordField → List Byte
  | [] => []
  | f :: fs => le f.width f.value ++ layout fs

/-- The bytes that fields take together. -/
def layoutWidth : List RecordField → Nat
  | [] => 0
  | f :: fs => f.width + layoutWidth fs

@[simp] theorem layoutWidth_nil : layoutWidth [] = 0 := rfl

@[simp] theorem layoutWidth_cons (f : RecordField) (fs : List RecordField) :
    layoutWidth (f :: fs) = f.width + layoutWidth fs := rfl

@[simp] theorem RecordField.bits_width (n : Nat) {w : Nat} (x : BitVec w) (h : w ≤ 8 * n) :
    (RecordField.bits n x h).width = n := rfl

@[simp] theorem RecordField.low_width (n x : Nat) : (RecordField.low n x).width = n := rfl

@[simp] theorem RecordField.signed_width (i : Int) : (RecordField.signed i).width = 8 := rfl

@[simp] theorem RecordField.byte_width (x : Byte) : (RecordField.byte x).width = 1 := rfl

@[simp] theorem RecordField.code_width (x : Nat) (h : x < 256) : (RecordField.code x h).width = 1 := rfl

@[simp] theorem RecordField.flag_width (b : Bool) : (RecordField.flag b).width = 1 := rfl

@[simp] theorem RecordField.zero_width (n : Nat) : (RecordField.zero n).width = n := rfl

theorem layout_length (fs : List RecordField) : (layout fs).length = layoutWidth fs := by
  induction fs with
  | nil => rfl
  | cons f fs ih => rw [layout, List.length_append, le_length, ih, layoutWidth]

/-- Fields read back one after another from an offset of a record, and what else is stated beside them. -/
def ShownAt (r : List Byte) : Nat → List RecordField → Prop → Prop
  | _, [], more => more
  | a, f :: fs, more => fieldAt r a f.width = f.value ∧ ShownAt r (a + f.width) fs more

/-- Each field reads back where its bytes stand. -/
theorem shownAt_of_bytesAt {r : List Byte} {fs : List RecordField} {a : Nat} {more : Prop}
    (h : bytesAt r a (layoutWidth fs) = layout fs) (hmore : more) : ShownAt r a fs more := by
  induction fs generalizing a with
  | nil => exact hmore
  | cons f fs ih =>
    rw [layoutWidth, layout, bytesAt_add] at h
    obtain ⟨first, rest⟩ := List.append_inj h (by simp)
    refine ⟨?_, ih rest⟩
    rw [fieldAt, first, ofLe_le, Nat.mod_eq_of_lt f.fits]

/-! ### The bytes of each field -/

theorem le_mod (n x : Nat) : le n (x % 256 ^ n) = le n x := by
  induction n generalizing x with
  | zero => rfl
  | succ n ih =>
    have first : BitVec.ofNat 8 (x % (256 * 256 ^ n)) = BitVec.ofNat 8 x :=
      BitVec.eq_of_toNat_eq (Nat.mod_mul_right_mod x 256 (256 ^ n))
    rw [le, le, Nat.pow_succ', first, Nat.mod_mul_right_div_self, ih]

@[simp] theorem byteOf_eq_le (x : Nat) : byteOf x = le 1 x := rfl

section
variable (fs : List RecordField)

@[simp] theorem layout_nil : layout [] = [] := rfl

@[simp] theorem layout_bits (n : Nat) {w : Nat} (x : BitVec w) (h : w ≤ 8 * n) :
    layout (.bits n x h :: fs) = le n x.toNat ++ layout fs := rfl

@[simp] theorem layout_low (n x : Nat) : layout (.low n x :: fs) = le n x ++ layout fs := by
  refine congrArg (· ++ layout fs) (Eq.trans ?_ (le_mod n x))
  exact congrArg (fun m => le n (x % m)) (Nat.pow_mul 2 8 n)

@[simp] theorem layout_signed (i : Int) : layout (.signed i :: fs) = le8Int i ++ layout fs :=
  congrArg (le 8 · ++ layout fs) (BitVec.toNat_ofInt (n := 64) i).symm

@[simp] theorem layout_byte (x : Byte) : layout (.byte x :: fs) = x :: layout fs :=
  congrArg (· :: layout fs) (BitVec.ofNat_toNat 8 x)

@[simp] theorem layout_code (x : Nat) (h : x < 256) : layout (.code x h :: fs) = le 1 x ++ layout fs := rfl

@[simp] theorem layout_flag (b : Bool) : layout (.flag b :: fs) = flagByte b :: layout fs := by cases b <;> rfl

@[simp] theorem layout_zero (n : Nat) : layout (.zero n :: fs) = zeros n ++ layout fs := by
  have bytes : le n 0 = zeros n := by
    induction n with
    | zero => rfl
    | succ n ih => exact congrArg (0 :: ·) ih
  exact congrArg (· ++ layout fs) bytes

end

/-! ### Codes and bits in one byte (13.1 to 13.3) -/

theorem RouteState.code_lt (x : RouteState) : x.code < 256 := by cases x <;> decide
theorem LatePolicy.code_lt (x : LatePolicy) : x.code < 256 := by cases x <;> decide
theorem InMode.code_lt (x : InMode) : x.code < 256 := by cases x <;> decide
theorem OutMode.code_lt (x : OutMode) : x.code < 256 := by cases x <;> decide
theorem Drive.code_lt (x : Drive) : x.code < 256 := by cases x <;> decide
theorem Polarity.code_lt (x : Polarity) : x.code < 256 := by cases x <;> decide
theorem Session.code_lt (x : Session) : x.code < 256 := by cases x <;> decide
theorem Reason.code_lt (x : Reason) : x.code < 256 := by cases x <;> decide
theorem Section6.code_lt (x : Section6) : x.code < 256 := by cases x <;> decide

theorem selectorCode_lt (ring : Option (Fin 4)) : selectorCode ring < 256 := by
  cases ring with
  | none => decide
  | some k => exact k.isLt.trans (by decide)

theorem bitsByte_lt (bs : List Bool) : bitsByte bs < 2 ^ bs.length := by
  induction bs with
  | nil => decide
  | cons b bs ih =>
    have := b.toNat_le
    rw [bitsByte, List.length_cons, Nat.pow_succ]
    omega

/-- 13.3: bit `i` of a byte of bits, 0 above them. -/
theorem bitsByte_testBit (bs : List Bool) (i : Nat) : (bitsByte bs).testBit i = bs.getD i false := by
  induction bs generalizing i with
  | nil => simp [bitsByte]
  | cons b bs ih =>
    have bit : bitsByte (b :: bs) = Nat.bit b (bitsByte bs) := by
      rw [Nat.bit_val, Nat.add_comm]; rfl
    cases i with
    | zero => rw [bit, Nat.testBit_bit_zero]; rfl
    | succ i => rw [bit, Nat.testBit_bit_succ, ih]; rfl

/-- A byte of up to eight bits. -/
def RecordField.flags (bs : List Bool) (h : bs.length ≤ 8 := by simp) : RecordField :=
  .code (bitsByte bs) ((bitsByte_lt bs).trans_le (Nat.pow_le_pow_right (by decide) h))

@[simp] theorem RecordField.flags_width (bs : List Bool) (h : bs.length ≤ 8) : (RecordField.flags bs h).width = 1 := rfl

/-- 13.3: a byte that shows bits holds each of them, and 0 above them. -/
theorem flags_bits {r : List Byte} {a : Nat} {bs : List Bool} (h : bs.length ≤ 8)
    (shown : fieldAt r a 1 = bitsByte bs) :
    (List.range 8).map (fun i => (r.getD a 0).getLsbD i) = bs ++ List.replicate (8 - bs.length) false := by
  have value : (r.getD a 0).toNat = bitsByte bs := shown
  have bit : ∀ i, (r.getD a 0).getLsbD i = bs.getD i false := fun i => by
    rw [← BitVec.testBit_toNat, value, bitsByte_testBit]
  refine List.ext_getElem (by simp [h]) fun i _ _ => ?_
  rw [List.getElem_map, List.getElem_range, bit, List.getElem_append]
  split <;> rename_i inside <;> simp [List.getD_eq_getElem?_getD, inside]

/-- 13.1, R193: the deferred set as the sum of its bits. -/
theorem deferredSet_eq (s : State) : deferredSet s = (if inFlight .linkOpen s then 1 else 0)
    + (if inFlight .quiesce s then 2 else 0) + (if inFlight .statsRead s then 4 else 0)
    + (if inFlight .fence s then 8 else 0) := by
  have weigh : ∀ (b : Bool) (k : Nat), (if b then k else 0) = k * b.toNat := by simp
  simp only [deferredSet, List.map, bitsByte, weigh]
  omega

/-! ### What each item lays (13.3, R191 to R193) -/

/-- R191: the group of a route entry. -/
def routeFields (e : RouteEntry) : List RecordField :=
  [.bits 2 e.config.outputs, .bits 1 e.config.rings, .bits 1 e.config.kinds, .code e.state.code e.state.code_lt,
    .flag e.config.forward, .code e.config.late.code e.config.late.code_lt, .zero 1, .bits 4 e.config.latency,
    .bits 2 e.config.width, .zero 2]

/-- R191: the group of an input line. -/
def inputFields (l : InputLine) : List RecordField :=
  [.code l.config.mode.code l.config.mode.code_lt, .flag l.config.announce, .byte l.config.source,
    .flags [l.raw.isHigh, l.accepted.isHigh, l.reported.isHigh, l.candidate.isSome, l.spacingEnd.isSome, l.suppressed],
    .bits 2 l.config.filter, .zero 2, .bits 4 l.config.spacing, .zero 4, .low 8 (l.candidate.getD 0),
    .low 8 (l.spacingEnd.getD 0)]

/-- R99, R192: the group of an output line; `board` is the level on a released pin (log entry 25). -/
def outputFields (o : OutputLine) (board : Level) : List RecordField :=
  [.code o.mode.code o.mode.code_lt, .code o.drive.code o.drive.code_lt, .code o.polarity.code o.polarity.code_lt,
    .flags [o.resting.isHigh, o.pulse.isSome, o.shown.isHigh, o.pinValue.isHigh, o.driven, (o.sampled board).isHigh],
    .zero 4, .signed (o.pulse.getD 0)]

/-- R192: the session group, bytes 0 to 6. -/
def sessionFields (l : Link) : List RecordField :=
  [.code l.session.code l.session.code_lt, .code l.reason.code l.reason.code_lt, .bits 2 l.own, .bits 2 l.recorded,
    .low 1 l.params.retryLimit]

/-- R192: the session group, bytes 8 to 31. -/
def paramFields (l : Link) : List RecordField :=
  [.low 8 l.params.openTimeout, .low 4 l.params.ackTimeout, .low 4 l.params.idleTimeout, .low 4 l.params.alignInterval,
    .low 4 l.params.maxDelay]

/-- R192: the transmit group (log entry 41). -/
def transmitFields (l : Link) : List RecordField :=
  [.low 1 l.queueDepth, .low 1 l.window.length, .byte l.nextSeq, .low 1 l.oldestRetry]

/-- R192: the outstanding probe. -/
def probeFields (l : Link) : List RecordField :=
  [.flag l.outstanding.isSome, .byte (match l.outstanding with | some p => p.1 | none => 0)]

/-- R193: a ring record. -/
def ringFields (present : Bool) (size : Nat) (base : Quad) (producer fill consumer : Nat) (loss : Counter) :
    List RecordField :=
  [.flag present, .zero 3, .low 4 size, .bits 8 base, .low 4 producer, .low 4 fill, .low 4 consumer, .bits 4 loss]

/-- R193: the record of a completion or event ring. -/
def OutRing.fields (q : OutRing) : List RecordField :=
  ringFields (q.size != 0) q.size q.base q.producer q.fill q.consumer q.loss

/-- R193: the six ring records. -/
def ringGroupFields (g : Geometry) : Fin 6 → List RecordField
  | 0 => ringFields true g.cmd.size g.cmd.base g.cmd.producer 0 g.cmd.consumer 0
  | 1 => g.compl.fields
  | 2 => g.event[0].fields
  | 3 => g.event[1].fields
  | 4 => g.event[2].fields
  | 5 => g.event[3].fields

/-- R193: a ring record without a geometry is 0. -/
def ringRecord : Option Geometry → Fin 6 → List RecordField
  | some g, k => ringGroupFields g k
  | none, _ => [.zero 32]

/-- R193: the record of a fault class. -/
def faultFields (f : FaultState) : List RecordField :=
  [.flag f.sticky, .flag f.enabled, .flag f.armed, .zero 1, .bits 2 f.count, .zero 2, .bits 4 (f.firstContext.getD 0),
    .zero 4, .low 8 (f.firstTime.getD 0)]

/-- 13.3: the fields that an item shows, as groups at offsets of its record. -/
def StatsItem.fields (board : BitVec 16) (s : State) : StatsItem → List (Nat × List RecordField)
  | .routeGroup e => [(0, routeFields s.routes[e])]
  | .routeCounter e k => [(16 + 4 * k.val, [.bits 4 (s.routes[e].counters.get k)])]
  | .inputGroup n => [(0, inputFields s.inputs[n])]
  | .inputCounter n k => [(32 + 4 * k.val, [.bits 4 (s.inputs[n].counters.get k)])]
  | .outputGroup n => [(0, outputFields s.outputs[n] (if board.getLsbD n.val then .high else .low))]
  | .outputCounter n k => [(16 + 4 * k.val, [.bits 4 (s.outputs[n].counters.get k)])]
  | .linkSession => [(0, sessionFields s.link), (8, paramFields s.link)]
  | .linkTransmit => [(32, transmitFields s.link)]
  | .linkReceive => [(36, [.byte s.link.expected])]
  | .linkAlignment => [(7, [.flag s.link.fresh]), (37, probeFields s.link),
      (40, [.signed s.link.offset, .signed s.link.lastDelay])]
  | .linkCounter k => [(56 + 4 * k.val, [.bits 4 (s.link.counters.get k)])]
  | .ringsSelector => [(0, [.code (selectorCode (noticeRing s)) (selectorCode_lt _)])]
  | .ringsDeferred => [(1, [.flags ([DeferredKind.linkOpen, .quiesce, .statsRead, .fence].map fun k => inFlight k s)])]
  | .ringGroup k => [(8 + 32 * k.val, ringRecord s.geom k)]
  | .ringsCounter k => [(200 + 4 * k.val, [.bits 4 (s.ringCounters.get k)])]
  | .globalCounter k => [(4 * k.val, [.bits 4 (globalCount s k)])]
  | .holdDepth => [(32, [.low 1 s.hold.length])]
  | .holdPeak => [(33, [.low 1 s.holdCounters.peak])]
  | .faultPin => [(34, [.flag (faultAsserted s)])]
  | .faultClass k => [(40 + 24 * k.val, faultFields s.faults[k])]

theorem ringBytes_fields (present : Bool) (size : Nat) (base : Quad) (producer fill consumer : Nat) (loss : Counter) :
    ringBytes present size base producer fill consumer loss.toNat
      = layout (ringFields present size base producer fill consumer loss) := by
  simp [ringBytes, ringFields]

theorem OutRing.statsBytes_fields (q : OutRing) : q.statsBytes = layout q.fields := ringBytes_fields ..

theorem ringGroupBytes_fields (g : Geometry) (k : Fin 6) : ringGroupBytes g k = layout (ringGroupFields g k) := by
  match k with
  | 0 => exact ringBytes_fields true g.cmd.size g.cmd.base g.cmd.producer 0 g.cmd.consumer 0
  | 1 => exact g.compl.statsBytes_fields
  | 2 => exact g.event[0].statsBytes_fields
  | 3 => exact g.event[1].statsBytes_fields
  | 4 => exact g.event[2].statsBytes_fields
  | 5 => exact g.event[3].statsBytes_fields

theorem ringGroupFields_width (g : Geometry) (k : Fin 6) : layoutWidth (ringGroupFields g k) = 32 := by
  match k with
  | 0 | 1 | 2 | 3 | 4 | 5 => rfl

theorem ringRecord_width (geom : Option Geometry) (k : Fin 6) : layoutWidth (ringRecord geom k) = 32 := by
  cases geom with
  | none => rfl
  | some g => exact ringGroupFields_width g k

/-- 13.3: what an item lays over its record are its fields. -/
theorem StatsItem.patches_fields (board : BitVec 16) (s : State) (item : StatsItem) :
    item.patches board s = (item.fields board s).map fun p => (p.1, layout p.2) := by
  cases item
  case ringGroup k =>
    simp only [patches, fields]
    cases s.geom with
    | none => rfl
    | some g => simp [ringRecord, ringGroupBytes_fields]
  case routeGroup e => simp [patches, fields, routeGroupBytes, routeFields]
  case inputGroup n => simp [patches, fields, inputGroupBytes, inputFields, RecordField.flags]
  case outputGroup n => simp [patches, fields, outputGroupBytes, outputFields, RecordField.flags]
  case linkSession => simp [patches, fields, linkSessionBytes, sessionFields, paramFields]
  case linkTransmit => simp [patches, fields, linkTransmitBytes, transmitFields]
  case linkAlignment =>
    simp only [patches, fields, linkAlignmentBytes, probeFields]
    cases s.link.outstanding <;> simp
  case faultClass k => simp [patches, fields, faultClassBytes, faultFields]
  all_goals simp [patches, fields, deferredSet, RecordField.flags]

/-- 13.3: each item stands within the record of its section. -/
theorem StatsItem.fields_within (board : BitVec 16) (s : State) (item : StatsItem) :
    ∀ p ∈ item.fields board s, p.1 + layoutWidth p.2 ≤ item.section.recordLength := by
  cases item
  case ringGroup k =>
    have := k.isLt
    simp [fields, ringRecord_width, StatsItem.section, Section6.recordLength]
    omega
  case routeCounter _ k | inputCounter _ k | outputCounter _ k | linkCounter k | ringsCounter k | globalCounter k
      | faultClass k =>
    have := k.isLt
    simp [fields, faultFields, StatsItem.section, Section6.recordLength]
    omega
  case routeGroup e => simp [fields, routeFields, StatsItem.section, Section6.recordLength]
  case inputGroup n => simp [fields, inputFields, StatsItem.section, Section6.recordLength]
  case outputGroup n => simp [fields, outputFields, StatsItem.section, Section6.recordLength]
  case linkSession => simp [fields, sessionFields, paramFields, StatsItem.section, Section6.recordLength]
  case linkTransmit => simp [fields, transmitFields, StatsItem.section, Section6.recordLength]
  case linkAlignment => simp [fields, probeFields, StatsItem.section, Section6.recordLength]
  all_goals simp [fields, StatsItem.section, Section6.recordLength]

/-- 13.3: the groups of an item stand apart from each other, in the order of their offsets. -/
theorem StatsItem.fields_apart (board : BitVec 16) (s : State) (item : StatsItem) :
    (item.fields board s).Pairwise fun p q => p.1 + layoutWidth p.2 ≤ q.1 := by
  cases item
  case linkSession => simp [fields, sessionFields]
  case linkAlignment => simp [fields, probeFields]
  all_goals exact List.pairwise_singleton _ _

section
variable (board : BitVec 16) (s : State) {r : List Byte} (item : StatsItem)

theorem StatsItem.patches_fit (h : r.length = item.section.recordLength) :
    FitWithin (item.patches board s) r.length := by
  rw [item.patches_fields, h]
  refine List.forall_mem_map.2 fun p hp => ?_
  rw [layout_length]
  exact item.fields_within board s p hp

/-- R190: an item read shows each of its fields in the record. -/
theorem StatsItem.shown (h : r.length = item.section.recordLength) {a : Nat} {fs : List RecordField}
    (hp : (a, fs) ∈ item.fields board s) {more : Prop} (hmore : more) :
    ShownAt (pokeAll r (item.patches board s)) a fs more := by
  have apart : (item.patches board s).Pairwise fun p q => p.1 + p.2.length ≤ q.1 := by
    rw [item.patches_fields, List.pairwise_map]
    simp only [layout_length]
    exact item.fields_apart board s
  have laid : (a, layout fs) ∈ item.patches board s := by
    rw [item.patches_fields]
    exact List.mem_map_of_mem hp
  refine shownAt_of_bytesAt ?_ hmore
  rw [← layout_length]
  exact pokeAll_bytesAt (item.patches_fit board s h) apart _ laid

/-- R190: an item read changes no byte beside its fields. -/
theorem StatsItem.keeps (h : r.length = item.section.recordLength) {spans : List (Nat × Nat)}
    (hspans : (item.fields board s).map (fun p => (p.1, layoutWidth p.2)) = spans) :
    KeepsOutside r (pokeAll r (item.patches board s)) spans := by
  have kept := pokeAll_keeps (item.patches_fit board s h)
  rw [← hspans]
  simpa only [item.patches_fields, List.map_map, Function.comp_def, layout_length] using kept

/-- R190: an item of one field. -/
theorem StatsItem.shown_one (h : r.length = item.section.recordLength) {a : Nat} {f : RecordField}
    (hf : item.fields board s = [(a, [f])]) :
    fieldAt (pokeAll r (item.patches board s)) a f.width = f.value
      ∧ KeepsOutside r (pokeAll r (item.patches board s)) [(a, f.width)] := by
  have mem : (a, [f]) ∈ item.fields board s := by rw [hf]; exact List.mem_singleton_self _
  exact item.shown board s h mem (item.keeps board s h (by rw [hf]; rfl))

end

/-! ### The ring records (R193) -/

section
variable {board : BitVec 16} {s : State} {r : List Byte} {g : Geometry} {k : Fin 6}

theorem ringGroup_fields (hg : s.geom = some g) :
    (StatsItem.ringGroup k).fields board s = [(8 + 32 * k.val, ringGroupFields g k)] := by
  rw [StatsItem.fields, hg]
  rfl

theorem ringGroup_keeps (h : r.length = 240) (hg : s.geom = some g) :
    KeepsOutside r (pokeAll r ((StatsItem.ringGroup k).patches board s)) [(8 + 32 * k.val, 32)] := by
  refine (StatsItem.ringGroup k).keeps board s h ?_
  rw [ringGroup_fields hg, List.map_singleton, ringGroupFields_width]

/-- R193: the record of a ring, field by field. -/
theorem ring_shown (h : r.length = 240) (hg : s.geom = some g) {present : Bool} {size : Nat} {base : Quad}
    {producer fill consumer : Nat} {loss : Counter}
    (hring : ringGroupFields g k = ringFields present size base producer fill consumer loss) :
    let a := 8 + 32 * k.val
    let t := pokeAll r ((StatsItem.ringGroup k).patches board s)
    fieldAt t a 1 = present.toNat ∧ fieldAt t (a + 1) 3 = 0 ∧ fieldAt t (a + 4) 4 = size % 2 ^ 32
      ∧ fieldAt t (a + 8) 8 = base.toNat ∧ fieldAt t (a + 16) 4 = producer % 2 ^ 32
      ∧ fieldAt t (a + 20) 4 = fill % 2 ^ 32 ∧ fieldAt t (a + 24) 4 = consumer % 2 ^ 32
      ∧ fieldAt t (a + 28) 4 = loss.toNat := by
  intro a t
  have mem : (a, ringFields present size base producer fill consumer loss)
      ∈ (StatsItem.ringGroup k).fields board s := by
    rw [ringGroup_fields hg, hring]
    exact List.mem_singleton_self _
  obtain ⟨shown0, shown1, shown2, shown3, shown4, shown5, shown6, shown7, -⟩ :=
    (StatsItem.ringGroup k).shown board s h mem trivial
  exact ⟨shown0, shown1, shown2, shown3, shown4, shown5, shown6, shown7⟩

/-- R193: the event rings are the last four of the six. -/
theorem ringGroupFields_event {e : Fin 4} (h : k.val = e.val + 2) : ringGroupFields g k = g.event[e].fields := by
  obtain ⟨k, hk⟩ := k
  obtain rfl : k = e.val + 2 := h
  match e with
  | 0 | 1 | 2 | 3 => rfl

end

/-! ### Headers, and the writes issued (R177, R190) -/

theorem Section6.size_lt (x : Section6) : x.size < 256 ^ 4 := by cases x <;> decide

/-- 13.3: the fields of a section header. -/
def headerFields (time : Nat) (x : Section6) : List RecordField :=
  [.low 8 time, .code x.code x.code_lt, .zero 3, ⟨4, x.size, x.size_lt⟩]

theorem sectionHeader_fields (time : Nat) (x : Section6) : sectionHeader time x = layout (headerFields time x) := by
  simp only [sectionHeader, headerFields, layout_low, layout_code, layout_zero, byteOf_eq_le, List.append_assoc]
  exact congrArg _ (congrArg _ (congrArg _ (List.append_nil _).symm))

theorem sectionHeader_length (time : Nat) (x : Section6) : (sectionHeader time x).length = 16 := by
  rw [sectionHeader_fields, layout_length]; rfl

/-- 13.3: a section header shows its fields. -/
theorem sectionHeader_shown (time : Nat) (x : Section6) :
    ShownAt (sectionHeader time x) 0 (headerFields time x) True := by
  rw [sectionHeader_fields]
  exact shownAt_of_bytesAt (by rw [← layout_length, bytesAt_self]) trivial

/-- R190: what is read goes into the record in assembly, which is issued behind its header when it is complete. -/
theorem StatsJob.read_eq (j : StatsJob) (item : StatsItem) (rest : List StatsItem) (patches : List (Nat × List Byte))
    (time : Nat) :
    let a := if item.opens then j.address + 16 else j.address
    let record := pokeAll (if j.record = [] then List.replicate item.section.recordLength 0 else j.record) patches
    j.read item rest patches time =
      ((if item.opens then [⟨j.address, sectionHeader time item.section⟩] else [])
         ++ (if item.closes then [⟨a, record⟩] else []),
       { j with
         address := if item.closes then a + record.length else a, todo := rest
         record := if item.closes then [] else record }) := by
  intro a record
  simp only [StatsJob.read, List.isEmpty_iff]
  cases item.closes with
  | false => exact Prod.ext (List.append_nil _).symm rfl
  | true => rfl

/-- Settles O36, section by section: an item shows its fields (`StatsItem.shown`) and keeps the bytes beside them
(`StatsItem.keeps`). -/
theorem statsRecordsShowState : Obligations.StatsRecordsShowState := by
  intro s board r laid shows bits keeps signed l
  refine ⟨fun e h => ?routes, fun n h => ?inputs, fun n h => ?outputs, fun h => ?link, fun h => ?rings,
    fun h => ?global, fun time x => ?header, StatsJob.read_eq⟩
  case routes =>
    refine (StatsItem.routeGroup e).shown board s h (List.mem_singleton_self _) ?_
    exact ⟨(StatsItem.routeGroup e).keeps board s h rfl, fun k => (StatsItem.routeCounter e k).shown_one board s h rfl⟩
  case inputs =>
    have counters := fun k => (StatsItem.inputCounter n k).shown_one board s h rfl
    obtain ⟨mode, announce, source, flags, rest⟩ := (StatsItem.inputGroup n).shown board s h (List.mem_singleton_self _)
      (And.intro ((StatsItem.inputGroup n).keeps board s h rfl) counters)
    exact ⟨mode, announce, source, flags_bits (by simp) flags, rest⟩
  case outputs =>
    have counters := fun k => (StatsItem.outputCounter n k).shown_one board s h rfl
    obtain ⟨mode, drive, polarity, flags, rest⟩ := (StatsItem.outputGroup n).shown board s h (List.mem_singleton_self _)
      (And.intro ((StatsItem.outputGroup n).keeps board s h rfl) counters)
    exact ⟨mode, drive, polarity, flags_bits (by simp) flags, rest⟩
  case link =>
    refine StatsItem.linkSession.shown board s h (List.mem_cons_self ..) ?_
    refine StatsItem.linkSession.shown board s h (List.mem_cons_of_mem _ (List.mem_singleton_self _)) ?_
    refine ⟨StatsItem.linkSession.keeps board s h rfl, ?_⟩
    refine StatsItem.linkTransmit.shown board s h (List.mem_singleton_self _) ?_
    refine ⟨StatsItem.linkTransmit.keeps board s h rfl, ?_⟩
    obtain ⟨expected, kept⟩ := StatsItem.linkReceive.shown_one board s h rfl
    refine ⟨expected, kept, ?_⟩
    have counters := fun k => (StatsItem.linkCounter k).shown_one board s h rfl
    have rest := StatsItem.linkAlignment.shown board s h
      (List.mem_cons_of_mem _ (List.mem_cons_of_mem _ (List.mem_singleton_self _)))
      (And.intro (StatsItem.linkAlignment.keeps board s h rfl) counters)
    obtain ⟨outstanding, number, rest⟩ :=
      StatsItem.linkAlignment.shown board s h (List.mem_cons_of_mem _ (List.mem_cons_self ..)) rest
    refine StatsItem.linkAlignment.shown board s h (List.mem_cons_self ..) ⟨outstanding, number.trans ?_, rest⟩
    cases s.link.outstanding <;> rfl
  case rings =>
    obtain ⟨selector, keptSelector⟩ := StatsItem.ringsSelector.shown_one board s h rfl
    obtain ⟨deferred, keptDeferred⟩ := StatsItem.ringsDeferred.shown_one board s h rfl
    refine ⟨selector, keptSelector, deferred.trans (deferredSet_eq s), keptDeferred, fun g k hg => ?_,
      fun k => (StatsItem.ringsCounter k).shown_one board s h rfl⟩
    refine ⟨?_, ?_, fun e he => ring_shown h hg (ringGroupFields_event he), ringGroup_keeps h hg⟩
    · rintro rfl
      exact ring_shown (k := 0) h hg rfl
    · rintro rfl
      exact ring_shown (k := 1) h hg rfl
  case global =>
    obtain ⟨depth, keptDepth⟩ := StatsItem.holdDepth.shown_one board s h rfl
    obtain ⟨peak, keptPeak⟩ := StatsItem.holdPeak.shown_one board s h rfl
    obtain ⟨pin, keptPin⟩ := StatsItem.faultPin.shown_one board s h rfl
    refine ⟨fun k => (StatsItem.globalCounter k).shown_one board s h rfl, depth, keptDepth, peak, keptPeak, pin,
      keptPin, fun k => ?_⟩
    refine (StatsItem.faultClass k).shown board s h (List.mem_singleton_self _) ?_
    exact (StatsItem.faultClass k).keeps board s h rfl
  case header =>
    obtain ⟨shownTime, shownCode, unnamed, shownSize, -⟩ := sectionHeader_shown time x
    exact ⟨sectionHeader_length time x, shownTime, shownCode, unnamed, shownSize⟩

end Sys2Proof.Machine
end

section
/-! PROOFS. The layouts of the host's records: command records read back (O59), and the completion and event ring
records (O48). -/

namespace Sys2Proof.Machine

/-! ### Command records (13.2, R197) -/

theorem fieldAt_word (x : Word) (r : List Byte) : fieldAt (le 4 x.toNat ++ r) 0 4 = x.toNat := by
  rw [fieldAt_append_left (le_length 4 _), ofLe_le]
  exact Nat.mod_eq_of_lt x.isLt

/-- 13.2: where the kind, the tag and the parameters stand in a command record. -/
theorem commandRecord_eq (tag : Word) (c : Command) :
    ∃ n, commandRecord tag c = Command.code c :: 0 :: 0 :: 0 :: (le 4 tag.toNat ++ (c.params ++ zeros n)) :=
  ⟨_, by simp only [commandRecord, List.append_assoc, List.cons_append, List.nil_append]; rfl⟩

/-- 13.2: the parameters of every kind end within the record. -/
theorem params_length_le (c : Command) : c.params.length ≤ 24 := by
  cases c <;> simp [Command.params]

theorem commandRecord_length (tag : Word) (c : Command) : (commandRecord tag c).length = 32 := by
  have := params_length_le c
  simp [commandRecord, zeros]
  omega

/-- R156: a kind code that is none of the nineteen stands for an unknown command. -/
theorem commandAt_unknown {r : List Byte} (h : knownKind (byteAt r 0) = false) :
    commandAt r = .unknown (byteAt r 0) := by
  have range : ¬ (1 ≤ (byteAt r 0).toNat ∧ (byteAt r 0).toNat ≤ 19) := of_decide_eq_false h
  unfold commandAt
  split
  case h_20 => rfl
  all_goals omega

/-- 13.2: the command of a record is read back field by field. -/
theorem commandAt_commandRecord (tag : Word) {c : Command} (h : WellFormed (takeOf tag c) = true) :
    commandAt (commandRecord tag c) = c := by
  obtain ⟨n, record⟩ := commandRecord_eq tag c
  have kind : byteAt (commandRecord tag c) 0 = Command.code c := by
    rw [record, byteAt, fieldAt_byte, BitVec.ofNat_toNat, BitVec.setWidth_eq]
  cases c
  case unknown k =>
    have unknown : knownKind k = false := by simpa [WellFormed, takeOf, takeUpTo] using h
    rw [commandAt_unknown (by rw [kind]; exact unknown), kind]
    rfl
  all_goals
    simp only [commandAt, kind, Command.code]
    simp [record, Command.params, routeSetAt, lineInAt, lineOutAt, outputSetAt, scheduleAt, linkOpenAt, statsReadAt,
      faultsAt, byteAt, halfAt, wordAt, quadAt, fieldAt_byte, fieldAt_behind, fieldAt_append_right, fieldAt_half,
      fieldAt_word, fieldAt_quad, -BitVec.toNat_ofNat]

/-- Settles O59: the tag stands at byte 4, and `commandAt_commandRecord` reads the rest. -/
theorem commandRecordsReadBack : Obligations.CommandRecordsReadBack := by
  intro tag c h
  obtain ⟨n, record⟩ := commandRecord_eq tag c
  have tagRead : wordAt (commandRecord tag c) 4 = tag := by
    simp only [record, wordAt, fieldAt_behind, fieldAt_word, BitVec.ofNat_toNat, BitVec.setWidth_eq]
  refine ⟨commandRecord_length tag c, ?_⟩
  rw [decodeCommandRecord, tagRead, commandAt_commandRecord tag h]

/-! ### Ring records (13.2, R197) -/

theorem Status.code_lt (x : Status) : x.code < 256 := by cases x <;> decide
theorem EventKind.code_lt (x : EventKind) : x.code < 256 := by cases x <;> simp [EventKind.code]
theorem FaultClass.code_lt (x : FaultClass) : x.code.val < 256 := x.code.isLt.trans (by decide)

theorem Origin.code_lt (x : Origin) : x.code < 256 := by
  cases x with
  | line n => exact n.isLt.trans (by decide)
  | link => decide
  | host tag => exact (by decide : 17 < 256)

/-- 13.1: the flags of an EVENT record. -/
def eventFlags (f : Flags) (late : Bool) : List Bool := [f.coalesced, f.refresh, f.unaligned, late]

theorem flagsByte_eq (f : Flags) (late : Bool) : flagsByte f late = BitVec.ofNat 8 (bitsByte (eventFlags f late)) := by
  obtain ⟨coalesced, refresh, unaligned⟩ := f
  revert coalesced refresh unaligned late
  decide

/-- 13.2: the fields of a completion record and of each event ring record, in their order. -/
def HostRecord.fields : HostRecord → List RecordField
  | .completion kind tag status w1 w2 w3 =>
      [.byte kind, .code status.code status.code_lt, .zero 2, .bits 4 tag, .bits 4 w1, .bits 4 w2, .bits 4 w3, .zero 12]
  | .event source kind origin flags late capture delivery lateness =>
      [.byte 1, .byte source, .code kind.code kind.code_lt, .code origin.code origin.code_lt,
        .flags (eventFlags flags late) (by simp [eventFlags]), .zero 1, .bits 2 kind.param, .low 8 capture,
        .low 8 delivery, .bits 4 lateness, .bits 4 origin.tagField]
  | .loss count => [.byte 2, .zero 3, .bits 4 count, .zero 24]
  | .fault cls context time =>
      [.byte 3, .code cls.code.val cls.code_lt, .zero 2, .bits 4 context, .low 8 time, .zero 16]
  | .link state reason own peer time =>
      [.byte 4, .code state.code state.code_lt, .code reason.code reason.code_lt, .zero 1, .bits 2 own, .bits 2 peer,
        .low 8 time, .zero 16]

theorem HostRecord.bytes_fields (x : HostRecord) : x.bytes = layout x.fields := by
  have code : ∀ x, le 1 x = [BitVec.ofNat 8 x] := fun _ => rfl
  have one : zeros 1 = [0] := rfl
  have two : zeros 2 = [0, 0] := rfl
  have three : zeros 3 = [0, 0, 0] := rfl
  cases x <;> simp [bytes, fields, RecordField.flags, flagsByte_eq, code, one, two, three]

theorem HostRecord.fields_width (x : HostRecord) : layoutWidth x.fields = 32 := by cases x <;> rfl

theorem HostRecord.bytes_length (x : HostRecord) : x.bytes.length = 32 := by
  rw [x.bytes_fields, layout_length, x.fields_width]

/-- 13.2: each field of a ring record reads back at its offset. -/
theorem HostRecord.shown (x : HostRecord) : ShownAt x.bytes 0 x.fields True := by
  rw [x.bytes_fields]
  exact shownAt_of_bytesAt (by rw [← layout_length, bytesAt_self]) trivial

theorem eq_zeros_of_ofLe : ∀ {bs : List Byte}, ofLe bs = 0 → bs = List.replicate bs.length 0
  | [], _ => rfl
  | b :: bs, h => by
    obtain ⟨first, rest⟩ : b.toNat = 0 ∧ ofLe bs = 0 := by
      rw [ofLe] at h
      omega
    rw [List.length_cons, List.replicate_succ, ← eq_zeros_of_ofLe rest, BitVec.eq_of_toNat_eq (y := 0) first]

/-- A field that shows 0 has only bytes 0. -/
theorem bytesAt_of_fieldAt_zero {r : List Byte} {a n : Nat} (h : fieldAt r a n = 0) :
    bytesAt r a n = List.replicate n 0 := by
  simpa using eq_zeros_of_ofLe h

/-- 13.1: the flags of an EVENT record stand in the low four bits of its bytes 4 and 5. -/
theorem eventFlags_shown {r : List Byte} {f : Flags} {late : Bool}
    (flags : fieldAt r 4 1 = bitsByte (eventFlags f late)) (unnamed : fieldAt r 5 1 = 0) :
    (r.getD 4 0).getLsbD 0 = f.coalesced ∧ (r.getD 4 0).getLsbD 1 = f.refresh ∧ (r.getD 4 0).getLsbD 2 = f.unaligned
      ∧ (r.getD 4 0).getLsbD 3 = late ∧ fieldAt r 4 2 < 16 := by
  have bits := flags_bits (by simp [eventFlags]) flags
  have both : fieldAt r 4 2 = fieldAt r 4 1 + 256 * fieldAt r 5 1 := rfl
  have small := bitsByte_lt (eventFlags f late)
  refine ⟨congrArg (·.getD 0 false) bits, congrArg (·.getD 1 false) bits, congrArg (·.getD 2 false) bits,
    congrArg (·.getD 3 false) bits, ?_⟩
  rw [both, flags, unnamed]
  exact small

/-- Settles O48, record by record. -/
theorem hostRecordsHaveTheirLayout : Obligations.HostRecordsHaveTheirLayout := by
  refine ⟨fun kind tag status w1 w2 w3 => ?completion,
    fun source kind origin flags late capture delivery lateness => ?event, fun count => ?loss,
    fun cls context time => ?fault, fun state reason own peer time => ?link, by decide, by decide, by decide, by decide⟩
  case completion =>
    obtain ⟨kindAt, statusAt, unnamed, tagAt, w1At, w2At, w3At, rest, -⟩ :=
      (HostRecord.completion kind tag status w1 w2 w3).shown
    exact ⟨HostRecord.bytes_length _, kindAt, statusAt, unnamed, tagAt, w1At, w2At, w3At, bytesAt_of_fieldAt_zero rest⟩
  case event =>
    obtain ⟨codeAt, sourceAt, kindAt, originAt, flagsAt, unnamed, paramAt, captureAt, deliveryAt, latenessAt,
      tagAt, -⟩ :=
      (HostRecord.event source kind origin flags late capture delivery lateness).shown
    obtain ⟨coalesced, refresh, unaligned, lateAt, small⟩ := eventFlags_shown flagsAt unnamed
    refine ⟨HostRecord.bytes_length _, codeAt, sourceAt, kindAt.trans ?_, originAt.trans ?_, coalesced, refresh,
      unaligned, lateAt, small, paramAt.trans ?_, captureAt, deliveryAt, latenessAt, tagAt.trans ?_⟩
    · cases kind <;> rfl
    · cases origin <;> rfl
    · rcases kind with _ | _ | level | _ | _
      case state => cases level <;> rfl
      all_goals rfl
    · cases origin <;> rfl
  case loss =>
    obtain ⟨codeAt, unnamed, countAt, rest, -⟩ := (HostRecord.loss count).shown
    exact ⟨HostRecord.bytes_length _, codeAt, unnamed, countAt, bytesAt_of_fieldAt_zero rest⟩
  case fault =>
    obtain ⟨codeAt, clsAt, unnamed, contextAt, timeAt, rest, -⟩ := (HostRecord.fault cls context time).shown
    exact ⟨HostRecord.bytes_length _, codeAt, clsAt, unnamed, contextAt, timeAt, bytesAt_of_fieldAt_zero rest⟩
  case link =>
    obtain ⟨codeAt, stateAt, reasonAt, unnamed, ownAt, peerAt, timeAt, rest, -⟩ :=
      (HostRecord.link state reason own peer time).shown
    exact ⟨HostRecord.bytes_length _, codeAt, stateAt, reasonAt, unnamed, ownAt, peerAt, timeAt,
      bytesAt_of_fieldAt_zero rest⟩

end Sys2Proof.Machine
end

section
/-! PROOFS. The register window: its writes, and what its reads show (O22). -/

namespace Sys2Proof.Machine

/-! ### Writes of the register window (R137, R199) -/

/-- R199: a write while RESET_N is asserted, of other than four bytes, or at the offset of no writable register. -/
theorem registerWrite_ignored {offset count : Nat} {word : Word} {s : State}
    (h : s.resetHeld = true ∨ count ≠ 4 ∨ offset ∉ [0x04, 0x0C, 0x10, 0x14, 0x18, 0x1C, 0x20]) :
    registerWrite offset count word s = s := by
  unfold registerWrite
  split
  · rfl
  · rename_i acts
    obtain ⟨free, four⟩ : s.resetHeld = false ∧ count = 4 := by simpa using acts
    have unwritable : offset ∉ [0x04, 0x0C, 0x10, 0x14, 0x18, 0x1C, 0x20] := by
      simpa [free, four] using h
    split
    case h_8 => rfl
    all_goals exact absurd unwritable (by decide)

/-- R137: a word written to CONTROL is the step of the row it names, or none. -/
theorem control_step (word : Word) (s : State) : .next (control word s) =
    if word.getLsbD 2 then exec .reset s
    else if word.getLsbD 0 = true ∧ s.part = .idle then exec .start s
    else if word.getLsbD 1 = true ∧ s.part = .running then exec (.stop none []) s
    else .next s := by
  have startBits : (word.getLsbD 0 && s.part == .idle) = true ↔ word.getLsbD 0 = true ∧ s.part = .idle := by simp
  unfold control
  by_cases reset : word.getLsbD 2 = true
  · rw [if_pos reset, if_pos reset]
    rfl
  rw [if_neg reset, if_neg reset]
  by_cases start : word.getLsbD 0 = true ∧ s.part = .idle
  · rw [if_pos (startBits.2 start), if_pos start]
    rfl
  rw [if_neg (startBits.not.2 start), if_neg start]
  by_cases stop : word.getLsbD 1 = true
  · rw [if_pos stop]
    by_cases running : s.part = .running
    · exact (if_pos ⟨stop, running⟩).symm
    · rw [if_neg fun h => running h.2]
      exact congrArg _ (if_neg running)
  · rw [if_neg stop, if_neg fun h => stop h.1]

/-! ### What the register window shows (13.5, R136, R184) -/

theorem PartState.code_le (x : PartState) : x.code ≤ 4 := by cases x <;> decide
theorem StartError.code_le (x : StartError) : x.code ≤ 4 := by cases x <;> decide
theorem Session.code_le (x : Session) : x.code ≤ 4 := by cases x <;> decide

theorem extractLsb'_eq_ofNat {x : Word} {start len n : Nat} (h : x.toNat / 2 ^ start % 2 ^ len = n) :
    x.extractLsb' start len = BitVec.ofNat len n := by
  apply BitVec.eq_of_toNat_eq
  rw [BitVec.extractLsb'_toNat, BitVec.toNat_ofNat, Nat.shiftRight_eq_div_pow, ← h, Nat.mod_mod]

theorem getLsbD_eq_of_toNat {x : Word} {i : Nat} {b : Bool} (h : x.toNat / 2 ^ i % 2 = b.toNat) :
    x.getLsbD i = b := by
  rw [← BitVec.testBit_toNat, Nat.testBit_eq_decide_div_mod_eq, h]
  cases b <;> rfl

/-- 13.5: each field of STATUS at its bits, 0 above them. -/
theorem statusWord_fields (s : State) :
    (statusWord s).extractLsb' 0 4 = BitVec.ofNat 4 s.part.code
    ∧ (statusWord s).extractLsb' 4 4 = BitVec.ofNat 4 s.startError.code
    ∧ (statusWord s).getLsbD 8 = s.intakeOpen
    ∧ (statusWord s).extractLsb' 9 3 = BitVec.ofNat 3 s.link.session.code
    ∧ (statusWord s).getLsbD 12 = faultAsserted s
    ∧ (statusWord s).extractLsb' 13 19 = 0 := by
  have part := s.part.code_le
  have error := s.startError.code_le
  have openBit := s.intakeOpen.toNat_le
  have session := s.link.session.code_le
  have pin := (faultAsserted s).toNat_le
  have value : (statusWord s).toNat = s.part.code + 16 * s.startError.code + 256 * s.intakeOpen.toNat
      + 512 * s.link.session.code + 4096 * (faultAsserted s).toNat := Nat.mod_eq_of_lt (by omega)
  exact ⟨extractLsb'_eq_ofNat (by omega), extractLsb'_eq_ofNat (by omega), getLsbD_eq_of_toNat (by omega),
    extractLsb'_eq_ofNat (by omega), getLsbD_eq_of_toNat (by omega), extractLsb'_eq_ofNat (n := 0) (by omega)⟩

/-- R184: FAULT_N is asserted while some class is sticky and report-enabled. -/
theorem faultAsserted_iff (s : State) :
    faultAsserted s = true ↔ ∃ k : Fin 9, s.faults[k].sticky = true ∧ s.faults[k].enabled = true := by
  have named : ∀ k : Fin 9, ∃ c ∈ allFaultClasses, c.code = k := by decide
  simp only [faultAsserted, faultOf, List.any_eq_true, Bool.and_eq_true]
  constructor
  · rintro ⟨c, -, enabled, sticky⟩
    exact ⟨c.code, sticky, enabled⟩
  · rintro ⟨k, sticky, enabled⟩
    obtain ⟨c, mem, rfl⟩ := named k
    exact ⟨c, mem, enabled, sticky⟩

theorem readWord_beyond (s : State) {offset : Nat} (h : 0x24 ≤ offset) : s.readWord offset = 0 := by
  unfold State.readWord
  split
  case h_8 => rfl
  all_goals omega

/-- Settles O22: the writes by `registerWrite_ignored` and `control_step`, STATUS by `statusWord_fields`. -/
theorem registerWindowWritesAndReads : Obligations.RegisterWindowWritesAndReads := by
  refine ⟨fun s offset count word => ⟨fun otherCount => ?_, fun held => ?_, fun unwritable => ?_, fun free => ?_⟩,
    fun s => ?_⟩
  · exact congrArg _ (registerWrite_ignored (.inr (.inl otherCount)))
  · exact congrArg _ (registerWrite_ignored (.inl held))
  · exact congrArg _ (registerWrite_ignored (.inr (.inr unwritable)))
  · have acts : ¬ (s.resetHeld || (4 : Nat) != 4) = true := by simp [free]
    exact ⟨congrArg _ (if_neg acts), congrArg _ (if_neg acts), (congrArg _ (if_neg acts)).trans (control_step word s)⟩
  · obtain ⟨part, error, intake, session, pin, above⟩ := statusWord_fields s
    have sticky : (statusWord s).getLsbD 12 = true ↔ _ := pin ▸ faultAsserted_iff s
    refine ⟨rfl, part, error, intake, session, sticky, faultAsserted_iff s, above, fun absent => ?_, rfl, rfl, rfl, rfl,
      fun offset unshown => ?_⟩
    · simp only [State.readWord, absent]
    · obtain rfl | rfl | beyond := unshown
      · rfl
      · rfl
      · exact readWord_beyond s beyond

end Sys2Proof.Machine
end
